-- ==== Sys2Proof/Word.lean ====
section
/-! DEFINITION. The words of the link: characters, and the two counter widths that wrap. -/

namespace Sys2Proof

/-- One character of the link (R1: eight data bits). -/
abbrev Byte := BitVec 8

/-- The report sequence (R9) and every 16-bit report value (R193). -/
abbrev Word16 := BitVec 16

/-- The trip clock (R8) and the activation sequence (R100): 32 bits, wrapping. -/
abbrev Word32 := BitVec 32

end Sys2Proof
end

