-- ==== Sys2Proof/Syntax.lean ====
section
/-! DEFINITION. The commands of the Cirsan 2440: one constructor per row of spec/opcode_table.json. -/

namespace Sys2Proof

/-- A fault source of the Fault Memory (R147): the class and its number. -/
inductive FaultSource where
  | wiring (ch : Fin 24)
  | netlost (n : Fin 16)
  | gauge (g : Fin 8)
  | warning (w : Fin 64)
  | doorLock (leaf : Fin 8)
  | doorSlow (leaf : Fin 8)
  | doorInput (leaf : Fin 8)
  | doorParked (leaf : Fin 8)
  | system (n : Fin 3)
  deriving DecidableEq, Repr

/-- What the outside can do to the part. A request (the 38 rows IDENTIFY to WRITE_VEHICLE_ID) carries the TAG and
the payload characters of its frame and stands for the completion of that frame with a good check value; a pin or
measurement event carries what the pin shows; an expiry names its timer. -/
inductive Instr where
  /-- HARD_RESET (R14, R178): power-on or RST; the operand is the level of the LRATE strap (R1). -/
  | hardReset (lrateHigh : Bool)
  /-- SOFT_RESTART (R25, R179): the restart that follows the RESTART reply; the operand is the LRATE level. -/
  | softRestart (lrateHigh : Bool)
  /-- REBUILD_COMPLETE (R174). -/
  | rebuildComplete
  /-- LINE_FAULT (R1): a framing error or a break on RXD. -/
  | lineFault
  /-- FRAME_GAP_TIMEOUT (R3). -/
  | frameGapTimeout
  /-- FRAME_COMPLETE (R4): a whole frame has arrived, its characters from LENGTH to the second CHECK character. -/
  | frameComplete (chars : List Byte)
  /-- REPLY_SENT (R5). -/
  | replySent
  /-- IDENTIFY (R12). -/
  | identify (tag : Byte) (payload : List Byte)
  /-- GET_STATE (R13). -/
  | getState (tag : Byte) (payload : List Byte)
  /-- FETCH_REPORTS (R11). -/
  | fetchReports (tag : Byte) (payload : List Byte)
  /-- RESTART (R25). -/
  | restart (tag : Byte) (payload : List Byte)
  /-- START (R18). -/
  | start (tag : Byte) (payload : List Byte)
  /-- STOP (R24). -/
  | stop (tag : Byte) (payload : List Byte)
  /-- SET_REFERENCE (R50). -/
  | setReference (tag : Byte) (payload : List Byte)
  /-- SET_CHANNEL (R48, R49). -/
  | setChannel (tag : Byte) (payload : List Byte)
  /-- SET_SCAN (R34). -/
  | setScan (tag : Byte) (payload : List Byte)
  /-- SET_MOTION (R66). -/
  | setMotion (tag : Byte) (payload : List Byte)
  /-- SET_GAUGE (R72). -/
  | setGauge (tag : Byte) (payload : List Byte)
  /-- SET_CURVE (R73). -/
  | setCurve (tag : Byte) (payload : List Byte)
  /-- SET_WARNING (R93). -/
  | setWarning (tag : Byte) (payload : List Byte)
  /-- SET_LAMP (R113). -/
  | setLamp (tag : Byte) (payload : List Byte)
  /-- SET_PATTERN (R114). -/
  | setPattern (tag : Byte) (payload : List Byte)
  /-- SET_LEAF (R126). -/
  | setLeaf (tag : Byte) (payload : List Byte)
  /-- SET_FREEZE (R154). -/
  | setFreeze (tag : Byte) (payload : List Byte)
  /-- POST_NETWORK (R64). -/
  | postNetwork (tag : Byte) (payload : List Byte)
  /-- REQUEST_CONVERSION (R37). -/
  | requestConversion (tag : Byte) (payload : List Byte)
  /-- READ_CHANNELS (R69). -/
  | readChannels (tag : Byte) (payload : List Byte)
  /-- READ_GAUGES (R91). -/
  | readGauges (tag : Byte) (payload : List Byte)
  /-- READ_WARNINGS (R104). -/
  | readWarnings (tag : Byte) (payload : List Byte)
  /-- READ_DOORS (R144). -/
  | readDoors (tag : Byte) (payload : List Byte)
  /-- READ_FAULTS (R162). -/
  | readFaults (tag : Byte) (payload : List Byte)
  /-- READ_DOOR_STATS (R145). -/
  | readDoorStats (tag : Byte) (payload : List Byte)
  /-- ACKNOWLEDGE (R105, R106). -/
  | acknowledge (tag : Byte) (payload : List Byte)
  /-- SET_CHIME_FLOOR (R108). -/
  | setChimeFloor (tag : Byte) (payload : List Byte)
  /-- CLEAR_LIMITS (R68). -/
  | clearLimits (tag : Byte) (payload : List Byte)
  /-- ENTER_SERVICE (R180). -/
  | enterService (tag : Byte) (payload : List Byte)
  /-- LEAVE_SERVICE (R182). -/
  | leaveService (tag : Byte) (payload : List Byte)
  /-- GAUGE_TEST (R88). -/
  | gaugeTest (tag : Byte) (payload : List Byte)
  /-- LAMP_TEST (R122). -/
  | lampTest (tag : Byte) (payload : List Byte)
  /-- CHIME_TEST (R123). -/
  | chimeTest (tag : Byte) (payload : List Byte)
  /-- END_TESTS (R184). -/
  | endTests (tag : Byte) (payload : List Byte)
  /-- READ_RAW (R186). -/
  | readRaw (tag : Byte) (payload : List Byte)
  /-- CLEAR_FAULTS (R160). -/
  | clearFaults (tag : Byte) (payload : List Byte)
  /-- RESET_DOOR_STATS (R143). -/
  | resetDoorStats (tag : Byte) (payload : List Byte)
  /-- WRITE_VEHICLE_ID (R175). -/
  | writeVehicleId (tag : Byte) (payload : List Byte)
  /-- IGN_CHANGE (R16): the raw IGN level is now `high`. -/
  | ignChange (high : Bool)
  /-- IGNITION_ON_CONFIRMED (R16). -/
  | ignitionOnConfirmed
  /-- IGNITION_OFF_CONFIRMED (R16). -/
  | ignitionOffConfirmed
  /-- SHUTDOWN_COMPLETE (R23). -/
  | shutdownComplete
  /-- OPERATING_SECOND (R21). -/
  | operatingSecond
  /-- COMPARATOR_EVENT (R38, R39): the loop resistance at the wired pin is now `ohms`. -/
  | comparatorEvent (ch : Fin 24) (ohms : Nat)
  /-- WATCH_SETTLE_END (R28). -/
  | watchSettleEnd
  /-- WATCH_QUIET (R28). -/
  | watchQuiet
  /-- PATH_READY (R42). -/
  | pathReady
  /-- GATE_OPEN (R30). -/
  | gateOpen
  /-- CONVERSION_COMPLETE (R30 to R32): `periods` oscillator periods were completed while the gate was open, and at
  its end the target pin stood at `pin` against the bias `bias`, both in one unit (R31). -/
  | conversionComplete (periods : Nat) (pin bias : Nat)
  /-- FRESHNESS_EXPIRY (R65) of network channel `n` (channel number 24 + n). -/
  | freshnessExpiry (n : Fin 16)
  /-- LOST_TIMER_EXPIRY (R65). -/
  | lostTimerExpiry (n : Fin 16)
  /-- INITIAL_TIMER_EXPIRY (R65). -/
  | initialTimerExpiry (n : Fin 16)
  /-- STANDSTILL_TIMER_EXPIRY (R67). -/
  | standstillTimerExpiry
  /-- GAUGE_UPDATE (R77). -/
  | gaugeUpdate (g : Fin 8)
  /-- DELAY_EXPIRY (R98). -/
  | delayExpiry (w : Fin 64)
  /-- RE_ALERT (R102). -/
  | reAlert (w : Fin 64)
  /-- ENVELOPE_STEP (R115). -/
  | envelopeStep
  /-- BULB_CHECK_END (R121). -/
  | bulbCheckEnd
  /-- TRAVEL_TIMER_EXPIRY (R131). -/
  | travelTimerExpiry (leaf : Fin 8)
  /-- LOCK_TIMER_EXPIRY (R131). -/
  | lockTimerExpiry (leaf : Fin 8)
  /-- CONFIRM_TIMER_EXPIRY (R149). -/
  | confirmTimerExpiry (src : FaultSource)
  /-- RECORD_PROGRAM_COMPLETE (R168). -/
  | recordProgramComplete
  /-- HEADER_PROGRAM_COMPLETE (R169). -/
  | headerProgramComplete
  /-- ERASE_COMPLETE (R171). -/
  | eraseComplete
  /-- ROW_PROGRAM_COMPLETE (R175). -/
  | rowProgramComplete
  /-- CHARACTER_RECEIVED (R2). -/
  | characterReceived (char : Byte)
  /-- TRIP_CLOCK_TICK (R8). -/
  | tripClockTick
  deriving DecidableEq, Repr

end Sys2Proof
end

