-- ==== Sys2Proof/Decode.lean ====
section
/-! DEFINITION. Commands from the bits of spec/opcode_table.json. No row of that table has bits ("fields" is empty in
all 74 rows): a command of this block reaches it as a pin event or a frame, never as an instruction word (log 28). -/

namespace Sys2Proof

/-- The command that a word spells by the table's bits: none, since no row of the table gives bits. -/
def decodeTableWord (_nbits _w : Nat) : Option Instr := none

end Sys2Proof
end

