-- ==== Sys2Proof/Config.lean ====
section
/-! DEFINITION. What the silicon fixes: the constants the manual states, and, as opaque constants with no body, the
values it leaves open. -/

namespace Sys2Proof.Config

/-- The vendor code of IDENTIFY (R192). -/
def vendorCode : Nat := 0x00A7

/-- The part code of IDENTIFY (R192). -/
def partCode : Nat := 0x2440

/-- The journal format version of IDENTIFY (R192). -/
def journalFormat : Nat := 1

/-- FREE VALUE (log 13): which capital letter the silicon revision is, A being 0; R12 fixes it in the silicon and R192
states only that it is an ASCII capital. -/
opaque revision : Fin 26

/-- FREE VALUE (log 10): the order in which blocks act where the rules leave it open; the argument counts the free
values read so far, and the number is read as a factorial-base code of a permutation (`Machine.permuteBy`). -/
opaque order : Nat → Nat

/-- FREE VALUE (log 12): whether a comparator that is powered up with its loop inside the window starts ABOVE. -/
opaque powerUpAbove : Nat → Bool

end Sys2Proof.Config
end

