-- ==== Sys2Proof/Machine/State.lean ====
section
/-! DEFINITION. The state of the Cirsan 2440, block by block, as plain data, and its value after a reset. -/

namespace Sys2Proof.Machine

/-! ## Names of the catalogue (R189) and of the blocks' chapters -/

/-- Operating states (R15). -/
inductive OpState where
  | starting | config | run | shutdown | parked
  deriving DecidableEq, Repr

/-- The priority and severity scale (R189), lowest first. -/
inductive Priority where
  | notice | advisory | caution | stop
  deriving DecidableEq, Repr

/-- Channel statuses (R56, R65). -/
inductive Status where
  | off | init | valid | held | fault | lost
  deriving DecidableEq, Repr

/-- Wiring fault classes (R55). -/
inductive WiringClass where
  | none | shortGround | openLoop | shortBattery | undetermined
  deriving DecidableEq, Repr

/-- Meanings of a band (R48). -/
inductive BandMeaning where
  | value | active | inactive | faultShort | faultOpen
  deriving DecidableEq, Repr

/-- Reading classes (R53). -/
inductive ReadingClass where
  | band (i : Nat) | saturated | stallLow | stallMid | stallHigh
  deriving DecidableEq, Repr

/-- The line level sampled at gate end (R31). -/
inductive LineLevel where
  | low | mid | high
  deriving DecidableEq, Repr

/-- The origin of a conversion (R32). -/
inductive Origin where
  | pass | priority
  deriving DecidableEq, Repr

/-- What a conversion measures (R30). -/
inductive Target where
  | reference | supply | wired (ch : Fin 24)
  deriving DecidableEq, Repr

/-- The supply state (R61). -/
inductive SupplyState where
  | normal | low | high
  deriving DecidableEq, Repr

/-- The motion state (R67). -/
inductive MotionState where
  | standstill | moving | unknown
  deriving DecidableEq, Repr

/-- A switch reading (R57). -/
inductive SwitchReading where
  | inactive | active
  deriving DecidableEq, Repr

/-- The judgement of a pass's reference (R58). -/
inductive Judgement where
  | good | failed
  deriving DecidableEq, Repr

/-- Pointer states (R80). -/
inductive PointerState where
  | unpowered | homing | sweep | tracking | hold | test | parking
  deriving DecidableEq, Repr

/-- The range indication of a display value (R75). -/
inductive RangeInd where
  | none | below | above
  deriving DecidableEq, Repr

/-- The phase of a homing run (R82); none before the gauge's first (R92). -/
inductive HomingPhase where
  | none | countdown | stopPulses
  deriving DecidableEq, Repr

/-- The phase of a sweep (R83); none before the gauge's first (R92). -/
inductive SweepPhase where
  | none | up | down
  deriving DecidableEq, Repr

/-- Warning instance states (section 6.3). -/
inductive WarnState where
  | inactive | delaying | active | acked | retained
  deriving DecidableEq, Repr

/-- Gating of a warning definition (R97). -/
inductive Gating where
  | always | moving | standstill
  deriving DecidableEq, Repr

/-- The unacknowledged style of a warning's lamp (R93). -/
inductive LampStyle where
  | steady | flash
  deriving DecidableEq, Repr

/-- The tone of a chime pattern (R114). -/
inductive Tone where
  | low | high
  deriving DecidableEq, Repr

/-- An envelope set: bit 0 the 1 Hz wave, bit 1 2 Hz, bit 2 4 Hz, bit 3 8 Hz (R189). -/
abbrev EnvSet := BitVec 4

/-- Leaf states (section 8.3). -/
inductive LeafState where
  | locked | closed | opening | opened | closing | obstructed | released | unknown
  deriving DecidableEq, Repr

/-- An input reading (R127). -/
inductive Reading where
  | inactive | active | unknown
  deriving DecidableEq, Repr

/-- Tracker states (R149). -/
inductive TrackerState where
  | absent | pending | confirmed
  deriving DecidableEq, Repr

/-- Causes carried by SERVICE_ENDED and TEST_ENDED (R189). -/
inductive EndCause where
  | leaveService | motion | shutdown | stop | endTests | stopWarning
  deriving DecidableEq, Repr

/-- Watch states (R28). -/
inductive WatchState where
  | quiet | settling | waking | draining
  deriving DecidableEq, Repr

/-! ## Link Interface -/

/-- Every report event of R193; the source is part of the name's row there. -/
inductive Event where
  | stateChanged | ignition | watchWake | watchQuiet | referenceFailed | referenceFault | referenceGood | supply
  | serviceEntered | serviceEnded | testEnded | chimeTestDone | reclaimDone | vehicleIdWritten
  | converted | conversionDropped | status | switch | switched | channelLimited
  | motion
  | pointerState | homingRestart | gaugeLimited | testReached
  | warningState
  | leafState | closingTime | doorwayState | doorsClear
  | confirmedNew | confirmedRepeat | displaced | notStored | agedOut | clearDone
  deriving DecidableEq, Repr

/-- A report of the queue (R9): sequence, trip time, event, item and value or absent. -/
structure Report where
  seq   : Word16
  time  : Word32
  event : Event
  item  : Nat
  value : Option Word16
  deriving DecidableEq, Repr

/-- The receiver (R2). -/
inductive Receiver where
  | hunting | assembling
  deriving DecidableEq, Repr

/-- The transmitter (R5); ANSWERING holds the characters of the reply in progress. -/
inductive Transmitter where
  | idle | answering (reply : List Byte)
  deriving DecidableEq, Repr

/-- The rate of the line (R1). -/
inductive LineRate where
  | baud115200 | baud460800
  deriving DecidableEq, Repr

/-- The Link Interface (chapter 1). -/
structure Link where
  receiver       : Receiver
  buffer         : List Byte
  gapMs          : Nat
  transmitter    : Transmitter
  restartPending : Bool
  reports        : List Report
  nextSeq        : Word16
  tripClock      : Word32
  lineRate       : LineRate
  vehicleId      : Option (List Byte)
  deriving DecidableEq, Repr

/-! ## State Controller -/

/-- The State Controller (chapters 2 and 11). -/
structure Controller where
  opState       : OpState
  service       : Bool
  ignRaw        : Bool
  ignOn         : Bool
  steadyMs      : Nat
  newCycle      : Bool
  cycle         : Nat
  opSeconds     : Nat
  remainderMs   : Nat
  cycleInterval : Nat
  watch         : WatchState
  ignPending    : Bool
  watchSet      : List (Fin 24)
  deriving DecidableEq, Repr

/-! ## Conversion Unit -/

/-- The phase of a conversion (R30). -/
inductive ConvPhase where
  | settle | gate
  deriving DecidableEq, Repr

/-- The conversion in flight (R30); `hostMark` is the mark of the priority entry it took (R37). -/
structure Conversion where
  target   : Target
  origin   : Origin
  gate     : Fin 4
  phase    : ConvPhase
  hostMark : Bool
  deriving DecidableEq, Repr

/-- The result record of R32. -/
structure ResultRecord where
  target    : Target
  count     : Nat
  saturated : Bool
  level     : LineLevel
  gate      : Fin 4
  origin    : Origin
  deriving DecidableEq, Repr

/-- Power of the measuring path (R42). -/
inductive PathPower where
  | unpowered | settling | ready
  deriving DecidableEq, Repr

/-- A pass element (R35); in a watch pass an entry is a position of the watch set (R43). -/
inductive PassElement where
  | reference | supply | entry (i : Nat)
  deriving DecidableEq, Repr

/-- A comparator (R38). -/
inductive Comparator where
  | unpowered | below | above
  deriving DecidableEq, Repr

/-- An edge latch (R39). -/
inductive Latch where
  | armed | set
  deriving DecidableEq, Repr

/-- An entry of the priority conversion queue (R36). -/
structure PrioEntry where
  ch       : Fin 24
  hostMark : Bool
  deriving DecidableEq, Repr

/-- The Conversion Unit (chapter 3). -/
structure ConvUnit where
  inFlight   : Option Conversion
  elapsedQ   : Nat
  path       : PathPower
  settleMs   : Nat
  scan       : List (Fin 24)
  pos        : PassElement
  queue      : List PrioEntry
  runCount   : Nat
  comparator : Vector Comparator 24
  latch      : Vector Latch 24
  lastResult : Vector (Option ResultRecord) 24
  lastRef    : Option Nat
  loopOhms   : Vector Nat 24
  deriving DecidableEq, Repr

/-! ## Channel Interpreter -/

/-- The kind of a wired channel (R48). -/
inductive WiredKind where
  | off | switch | sender
  deriving DecidableEq, Repr

/-- The configuration of a wired channel (R48). -/
structure WiredCfg where
  kind       : WiredKind
  gate       : Fin 4
  confirm    : Nat
  thresholds : List Nat
  meanings   : List BandMeaning
  watch      : Bool
  watchThr   : Nat
  partner    : Option (Fin 24)
  deriving DecidableEq, Repr

/-- A wired channel of the channel table (chapter 4). -/
structure Wired where
  cfg       : WiredCfg
  candidate : Option ReadingClass
  candCount : Nat
  confirmed : Option ReadingClass
  wiring    : WiringClass
  status    : Status
  value     : Option Nat
  reading   : Option SwitchReading
  switched  : Bool
  limited   : Bool
  deriving DecidableEq, Repr

/-- The configuration of a network channel (R49); `network` is the kind, NETWORK or OFF. -/
structure NetCfg where
  network : Bool
  min     : Int
  max     : Int
  fresh   : Nat
  lost    : Nat
  deriving DecidableEq, Repr

/-- A network channel (R64, R65); a timer is the ms it has left, or stopped. -/
structure Net where
  cfg    : NetCfg
  value  : Option Int
  status : Status
  freshT : Option Nat
  lostT  : Option Nat
  initT  : Option Nat
  limited : Bool
  deriving DecidableEq, Repr

/-- The Channel Interpreter (chapter 4). -/
structure Interp where
  wired         : Vector Wired 24
  net           : Vector Net 16
  rRef          : Nat
  nRefMin       : Nat
  nRefMax       : Nat
  passCount     : Option Nat
  judgement     : Option Judgement
  failCount     : Nat
  refFault      : Bool
  supplyMv      : Option Nat
  supply        : SupplyState
  motionChannel : Option (Fin 40)
  moveThr       : Nat
  stopThr       : Nat
  motion        : MotionState
  standstillT   : Option Nat
  deriving DecidableEq, Repr

/-! ## Gauge Engine -/

/-- A gauge record (R72). -/
structure GaugeRec where
  source : Fin 40
  vMin   : Int
  vMax   : Int
  span   : Nat
  rest   : Nat
  k      : Nat
  slew   : Nat
  sweep  : Bool
  deriving DecidableEq, Repr

/-- A point of a curve (R73). -/
structure CurvePoint where
  x : Int
  y : Int
  deriving DecidableEq, Repr

/-- One gauge (chapter 5). `display` none is INVALID. -/
structure Gauge where
  record      : Option GaugeRec
  curve       : List CurvePoint
  display     : Option Int
  range       : RangeInd
  target      : Nat
  acc         : Nat
  filtered    : Nat
  pos         : Nat
  pointer     : PointerState
  resume      : Option PointerState
  homingPhase : HomingPhase
  stopPulses  : Nat
  sweepPhase  : SweepPhase
  testPos     : Option Nat
  testDue     : Bool
  restarts    : Nat
  homed       : Bool
  limited     : Bool
  updateMs    : Nat
  steps       : Int
  deriving DecidableEq, Repr

/-! ## Warning Manager -/

/-- The twelve condition types of R95 with their operands; a leaf set is a bit per leaf. -/
inductive Condition where
  | switchActive (ch : Fin 40)
  | valueBelow (g : Fin 8) (threshold : Int) (hysteresis : Nat)
  | valueAbove (g : Fin 8) (threshold : Int) (hysteresis : Nat)
  | channelFault (ch : Fin 40)
  | channelLost (ch : Fin 40)
  | doorNotSecure (leaves : BitVec 8)
  | doorReleased (leaves : BitVec 8)
  | doorObstructed (leaves : BitVec 8)
  | doorFault (leaves : BitVec 8)
  | supplyLow
  | supplyHigh
  | motionUnknown
  deriving DecidableEq, Repr

/-- A warning definition (R93). -/
structure WarnDef where
  cond      : Condition
  gating    : Gating
  priority  : Priority
  delay     : Nat
  latching  : Bool
  ackable   : Bool
  faultLink : Bool
  lamp      : Option (Fin 24)
  style     : LampStyle
  env       : EnvSet
  pattern   : Option (Fin 8)
  reAlert   : Nat
  deriving DecidableEq, Repr

/-- A warning instance (section 6.3); timers in ms left, or stopped. -/
structure WarnInst where
  state   : WarnState
  cond    : Bool
  delayT  : Option Nat
  alertT  : Option Nat
  act     : Option Word32
  deriving DecidableEq, Repr

/-- What the WM's view, and every consumer, knows of a channel: its effective status, value and switch reading. -/
structure ChanView where
  status  : Status
  value   : Option Int
  reading : Option SwitchReading
  deriving DecidableEq, Repr

/-- The four door conditions of a leaf (R136). -/
structure DoorCond where
  notSecure  : Bool
  released   : Bool
  obstructed : Bool
  fault      : Bool
  deriving DecidableEq, Repr

/-- The WM's input view (R97, R110). -/
structure View where
  chan    : Vector ChanView 40
  display : Vector (Option Int) 8
  door    : Vector DoorCond 8
  supply  : SupplyState
  motion  : MotionState
  deriving DecidableEq, Repr

/-- The Warning Manager (chapter 6). -/
structure WarnMgr where
  defs    : Vector (Option WarnDef) 64
  inst    : Vector WarnInst 64
  list    : List (Fin 64)
  counter : Word32
  floor   : Priority
  view    : Option View
  deriving DecidableEq, Repr

/-! ## Alert Output Unit -/

/-- A chime pattern (R114). -/
structure Pattern where
  tone : Tone
  env  : EnvSet
  rep  : Nat
  deriving DecidableEq, Repr

/-- A lamp drive (section 7). -/
inductive Drive where
  | dark | lit | flash (env : EnvSet)
  deriving DecidableEq, Repr

/-- A chime source or claimant (R117): a test carries which CHIME_TEST it is, so that a new test is a new claimant
(R123, log 16). -/
inductive ChimeSource where
  | none
  | owner (w : Fin 64) (act : Word32)
  | test (p : Fin 8) (gen : Nat)
  deriving DecidableEq, Repr

/-- An entry of the active warning list as handed to the AO (R101). -/
structure ListEntry where
  w     : Fin 64
  state : WarnState
  act   : Word32
  deriving DecidableEq, Repr

/-- The Alert Output Unit (chapter 7). -/
structure Alert where
  used       : Vector Bool 24
  patterns   : Vector (Option Pattern) 8
  genRunning : Bool
  phase      : Nat
  genQ       : Nat
  drive      : Vector Drive 24
  source     : ChimeSource
  claimant   : ChimeSource
  burst      : Nat
  finished   : Vector (Option Word32) 64
  bulb       : Option Nat
  overrides  : Vector (Option Bool) 24
  chimeTest  : Option (Fin 8)
  testGen    : Nat
  listCopy   : List ListEntry
  floorCopy  : Priority
  deriving DecidableEq, Repr

/-! ## Door Monitor -/

/-- A mapped input of a leaf (R126). -/
structure LeafInput where
  ch       : Fin 40
  inverted : Bool
  deriving DecidableEq, Repr

/-- A leaf configuration (R126); the slots are CLOSED, LOCKED, OPEN_END, EDGE, RELEASE. -/
structure LeafCfg where
  doorway : Fin 4
  inputs  : Vector (Option LeafInput) 5
  travel  : Nat
  lockTo  : Nat
  closing : Nat
  watched : Bool
  deriving DecidableEq, Repr

/-- One leaf (chapter 8). Timers: travel and lock in ms left, closing in ms counted. -/
structure Leaf where
  cfg         : Option LeafCfg
  counted     : Vector Bool 5
  state       : LeafState
  readings    : Vector Reading 5
  travelT     : Option Nat
  lockT       : Option Nat
  closingT    : Option Nat
  cycleMark   : Bool
  lockFault   : Bool
  slow        : Bool
  inputFault  : Bool
  releaseRose : Bool
  deriving DecidableEq, Repr

/-- The door statistics of a leaf (R132, R133). -/
structure DoorStats where
  cycles       : Nat
  obstructions : Nat
  slow         : Nat
  mean         : Option Nat
  deriving DecidableEq, Repr

/-- The Door Monitor (chapter 8). A doorway state none is EMPTY. -/
structure DoorMon where
  leaves     : Vector Leaf 8
  doorway    : Vector (Option LeafState) 4
  doorsClear : Bool
  stats      : Vector DoorStats 8
  conds      : Vector (Option DoorCond) 8
  deriving DecidableEq, Repr

/-! ## Fault Memory -/

/-- A freeze selector (R154). -/
inductive Selector where
  | gaugeValue (g : Fin 8)
  | channelValue (ch : Fin 40)
  | supply
  | speed
  | doorWord
  deriving DecidableEq, Repr

/-- One item of a freeze frame (R155). -/
structure FreezeItem where
  sel   : Selector
  value : Option Int
  deriving DecidableEq, Repr

/-- A fault entry (section 9.3), named by its source; the code is `faultCode src`. -/
structure FaultEntry where
  src        : FaultSource
  severity   : Priority
  occurrence : Nat
  firstSeen  : Nat
  lastSeen   : Nat
  firstCycle : Nat
  lastCycle  : Nat
  frame      : List FreezeItem
  displaces  : Option FaultSource
  dispPending : Bool
  deriving DecidableEq, Repr

/-- A tracker with its confirm timer (R149), in ms left, or stopped. -/
structure Tracker where
  state : TrackerState
  timer : Option Nat
  deriving DecidableEq, Repr

/-- The Fault Memory (chapter 9); sources are numbered by `sourceIndex`. -/
structure FaultMem where
  presence     : Vector Bool 147
  trackers     : Vector Tracker 147
  index        : List FaultEntry
  freeze       : List Selector
  full         : Bool
  clearPending : Bool
  deriving DecidableEq, Repr

/-! ## Journal Controller -/

/-- The content of a record (R166), which decides its kind and key. -/
inductive Content where
  | faultEntry (e : FaultEntry)
  | clearMark
  | cycle (number seconds : Nat)
  | doorStats (stats : Vector DoorStats 8)
  | vid (chars : List Byte)
  deriving DecidableEq, Repr

/-- The key of a record (R166). -/
inductive Key where
  | fault (src : FaultSource)
  | clearMark
  | cycle
  | doorStats
  | vid
  deriving DecidableEq, Repr

/-- A record of the array (R166): its sequence number and content. -/
structure Record where
  seq     : Nat
  content : Content
  deriving DecidableEq, Repr

/-- A programmed slot: a complete record, or void (R166). -/
inductive Slot where
  | record (r : Record)
  | void
  deriving DecidableEq, Repr

/-- A sector header (R165). -/
inductive Header where
  | blank | sequence (n : Nat) | unreadable
  deriving DecidableEq, Repr

/-- A sector (R165): its header and its programmed slots from slot 0 on; the other slots are blank. ERASED is a blank
header with no slots, IN_USE a readable header, ERASING an unreadable one. -/
structure Sector where
  header : Header
  slots  : List Slot
  deriving DecidableEq, Repr

/-- An operation of the array (R165). -/
inductive ArrayOp where
  | program (r : Record)
  | copy (r : Record)
  | header (sector : Fin 4)
  | row (seq : Nat) (chars : List Byte)
  | erase
  deriving DecidableEq, Repr

/-- The reclaim (R170, R171). -/
inductive Reclaim where
  | idle
  | copying (tail : Fin 4) (slot : Nat)
  | erasing (tail : Fin 4) (ms : Nat)
  deriving DecidableEq, Repr

/-- The vehicle identity row (R175). -/
inductive IdRow where
  | blank | programming | written (seq : Nat) (chars : List Byte) | spoiled
  deriving DecidableEq, Repr

/-- The Journal Controller (chapter 10). -/
structure Journal where
  sectors    : Vector Sector 4
  head       : Fin 4
  nextRec    : Nat
  nextSector : Nat
  queue      : List Content
  inFlight   : Option ArrayOp
  opMs       : Nat
  finishing  : Option ArrayOp
  reclaim    : Reclaim
  rebuildMs  : Nat
  row        : IdRow
  factory    : List Byte
  deriving DecidableEq, Repr

/-! ## The machine -/

/-- The state of the part: the commands that wait, the ten blocks, and the count of free values read. -/
structure State where
  pending   : List Instr
  li        : Link
  sc        : Controller
  cu        : ConvUnit
  ci        : Interp
  ge        : Vector Gauge 8
  wm        : WarnMgr
  ao        : Alert
  dm        : DoorMon
  fm        : FaultMem
  jc        : Journal
  freeCount : Nat
  deriving DecidableEq, Repr

/-- The machine never faults: the manual names no condition that stops the part, so there is no constructor (safe: a
model with no fault stops nowhere the part goes on). -/
inductive Fault where
  deriving DecidableEq, Repr

/-- Why a command has no meaning. -/
inductive Refusal where
  /-- Raised by `exec` alone, for a row of the table that has no meaning yet (safe); no arm raises it now. -/
  | notModelled (mnemonic : String)
  deriving DecidableEq, Repr

/-! ## Values after a reset -/

/-- The Link Interface after a reset (R14). The line rate is read from LRATE at the reset; low is DESIGN CHOICE
(log 2). -/
def Link.reset : Link :=
  { receiver := .hunting, buffer := [], gapMs := 0, transmitter := .idle, restartPending := false, reports := [],
    nextSeq := 0, tripClock := 0, lineRate := .baud115200, vehicleId := none }

/-- The State Controller after a reset (R25). The IGN pin low is DESIGN CHOICE (log 2). -/
def Controller.reset : Controller :=
  { opState := .starting, service := false, ignRaw := false, ignOn := false, steadyMs := 0, newCycle := true,
    cycle := 0, opSeconds := 0, remainderMs := 0, cycleInterval := 0, watch := .quiet, ignPending := false,
    watchSet := [] }

/-- The Conversion Unit after a reset (R45). The loops at 0 Ω are DESIGN CHOICE (log 2). -/
def ConvUnit.reset : ConvUnit :=
  { inFlight := none, elapsedQ := 0, path := .unpowered, settleMs := 0, scan := [], pos := .reference, queue := [],
    runCount := 0, comparator := Vector.replicate 24 .unpowered, latch := Vector.replicate 24 .armed,
    lastResult := Vector.replicate 24 none, lastRef := none, loopOhms := Vector.replicate 24 0 }

/-- A cleared wired channel configuration (R48, R71). R48 and R71 clear the band table, the watch and the partner of an OFF
channel and say nothing of its gate code and confirm count: that they stand at 0 is DESIGN CHOICE (log 40). -/
def WiredCfg.cleared : WiredCfg :=
  { kind := .off, gate := 0, confirm := 0, thresholds := [], meanings := [], watch := false, watchThr := 0,
    partner := none }

/-- A wired channel at its beginning under a configuration (R48, R71). -/
def Wired.fresh (cfg : WiredCfg) : Wired :=
  { cfg, candidate := none, candCount := 0, confirmed := none, wiring := .none,
    status := if cfg.kind = .off then .off else .init, value := none, reading := none, switched := false,
    limited := false }

/-- A cleared network channel configuration (R49, R71). With kind OFF R49 examines no other field and R71 says cleared without a
value: that minimum, maximum, freshness time and lost time stand at 0 is DESIGN CHOICE (log 40). -/
def NetCfg.cleared : NetCfg := { network := false, min := 0, max := 0, fresh := 0, lost := 0 }

/-- A network channel at its beginning under a configuration (R49, R71). -/
def Net.fresh (cfg : NetCfg) : Net :=
  { cfg, value := none, status := if cfg.network then .init else .off, freshT := none, lostT := none, initT := none,
    limited := false }

/-- The Channel Interpreter after a reset (R71). That the reference count of the pass is absent with the judgement is DEDUCED
(log 39). -/
def Interp.reset : Interp :=
  { wired := Vector.replicate 24 (Wired.fresh .cleared), net := Vector.replicate 16 (Net.fresh .cleared),
    rRef := 1000, nRefMin := 3000, nRefMax := 5000, passCount := none, judgement := none, failCount := 0,
    refFault := false, supplyMv := none, supply := .normal, motionChannel := none, moveThr := 0, stopThr := 0,
    motion := .standstill, standstillT := none }

/-- A gauge at its beginning (R72, R92): T stands at the rest position, 0 when unconfigured. -/
def Gauge.fresh (record : Option GaugeRec) (curve : List CurvePoint) : Gauge :=
  { record, curve, display := none, range := .none, target := (record.map (·.rest)).getD 0, acc := 0, filtered := 0,
    pos := 0, pointer := .unpowered, resume := none, homingPhase := .none, stopPulses := 0, sweepPhase := .none,
    testPos := none, testDue := false, restarts := 0, homed := false, limited := false, updateMs := 0, steps := 0 }

/-- A warning instance at rest (R93, R112). -/
def WarnInst.rest : WarnInst :=
  { state := .inactive, cond := false, delayT := none, alertT := none, act := none }

/-- The Warning Manager after a reset (R112). -/
def WarnMgr.reset : WarnMgr :=
  { defs := Vector.replicate 64 none, inst := Vector.replicate 64 .rest, list := [], counter := 0, floor := .notice,
    view := none }

/-- The Alert Output Unit after a reset (R125). -/
def Alert.reset : Alert :=
  { used := Vector.replicate 24 false, patterns := Vector.replicate 8 none, genRunning := false, phase := 0,
    genQ := 0, drive := Vector.replicate 24 .dark, source := .none, claimant := .none, burst := 0,
    finished := Vector.replicate 64 none, bulb := none, overrides := Vector.replicate 24 none, chimeTest := none,
    testGen := 0, listCopy := [], floorCopy := .notice }

/-- A leaf's running state at its beginning under a configuration (R126, R146). -/
def Leaf.fresh (cfg : Option LeafCfg) : Leaf :=
  { cfg, counted := Vector.replicate 5 true, state := .unknown, readings := Vector.replicate 5 .unknown,
    travelT := none, lockT := none, closingT := none, cycleMark := false, lockFault := false, slow := false,
    inputFault := false, releaseRose := false }

/-- Zero door statistics, mean absent (R141, R146). -/
def DoorStats.zero : DoorStats := { cycles := 0, obstructions := 0, slow := 0, mean := none }

/-- The Door Monitor after a reset (R146). -/
def DoorMon.reset : DoorMon :=
  { leaves := Vector.replicate 8 (Leaf.fresh none), doorway := Vector.replicate 4 none, doorsClear := false,
    stats := Vector.replicate 8 .zero, conds := Vector.replicate 8 none }

/-- An ABSENT tracker with its timer stopped. -/
def Tracker.rest : Tracker := { state := .absent, timer := none }

/-- The Fault Memory after a reset (R164). -/
def FaultMem.reset : FaultMem :=
  { presence := Vector.replicate 147 false, trackers := Vector.replicate 147 .rest, index := [], freeze := [],
    full := false, clearPending := false }

/-- An erased sector (R165). -/
def Sector.erased : Sector := { header := .blank, slots := [] }

/-- The Journal Controller after a reset (R179). The array, the identity row and the factory row are non-volatile: a
blank array, a BLANK row and a factory serial of zeros are DESIGN CHOICE (log 1); the head and the next sequence
numbers, which the rebuild sets, stand at 0 (log 3). A blank journal's rebuild lasts 15 + 3 ms (R173). -/
def Journal.reset : Journal :=
  { sectors := Vector.replicate 4 .erased, head := 0, nextRec := 0, nextSector := 0, queue := [], inFlight := none,
    opMs := 0, finishing := none, reclaim := .idle, rebuildMs := 18, row := .blank,
    factory := List.replicate 8 0 }

/-- The machine right after reset: STARTING, every block at the values its chapter gives, no command waiting. -/
def State.reset : State :=
  { pending := [], li := .reset, sc := .reset, cu := .reset, ci := .reset,
    ge := Vector.replicate 8 (Gauge.fresh none []), wm := .reset, ao := .reset, dm := .reset, fm := .reset,
    jc := .reset, freeCount := 0 }

end Sys2Proof.Machine
end

