-- ==== Sys2Proof/Machine/Ops.lean ====
section
/-! DEFINITION. Operations shared by every block: updates of a table and of one block of the state, placing a report,
and the free order in which blocks act. -/

namespace Sys2Proof.Machine

/-! ## Tables -/

/-- A table with the value of `f` at each item. -/
def tab {α : Type} {n : Nat} (f : Fin n → α) : Vector α n := ⟨⟨(List.finRange n).map f⟩, by simp⟩

/-- Every item of a table changed by `f`. -/
def vmap {α β : Type} {n : Nat} (f : α → β) (v : Vector α n) : Vector β n := tab fun i => f v[i]

/-- A table with item `i` replaced. -/
def vset {α : Type} {n : Nat} (v : Vector α n) (i : Fin n) (a : α) : Vector α n := v.set i.val a i.isLt

/-- A table with item `i` changed by `f`. -/
def vmod {α : Type} {n : Nat} (v : Vector α n) (i : Fin n) (f : α → α) : Vector α n := vset v i (f v[i])

/-! ## One block of the state changed -/

def State.modLi (f : Link → Link) (s : State) : State := { s with li := f s.li }
def State.modSc (f : Controller → Controller) (s : State) : State := { s with sc := f s.sc }
def State.modCu (f : ConvUnit → ConvUnit) (s : State) : State := { s with cu := f s.cu }
def State.modCi (f : Interp → Interp) (s : State) : State := { s with ci := f s.ci }
def State.modGe (f : Vector Gauge 8 → Vector Gauge 8) (s : State) : State := { s with ge := f s.ge }
def State.modWm (f : WarnMgr → WarnMgr) (s : State) : State := { s with wm := f s.wm }
def State.modAo (f : Alert → Alert) (s : State) : State := { s with ao := f s.ao }
def State.modDm (f : DoorMon → DoorMon) (s : State) : State := { s with dm := f s.dm }
def State.modFm (f : FaultMem → FaultMem) (s : State) : State := { s with fm := f s.fm }
def State.modJc (f : Journal → Journal) (s : State) : State := { s with jc := f s.jc }

/-- One wired channel changed. -/
def State.modWired (ch : Fin 24) (f : Wired → Wired) (s : State) : State :=
  s.modCi fun c => { c with wired := vmod c.wired ch f }

/-- One network channel changed. -/
def State.modNet (n : Fin 16) (f : Net → Net) (s : State) : State :=
  s.modCi fun c => { c with net := vmod c.net n f }

/-- One gauge changed. -/
def State.modGauge (g : Fin 8) (f : Gauge → Gauge) (s : State) : State := s.modGe fun ge => vmod ge g f

/-- One warning instance changed. -/
def State.modInst (w : Fin 64) (f : WarnInst → WarnInst) (s : State) : State :=
  s.modWm fun m => { m with inst := vmod m.inst w f }

/-- One leaf changed. -/
def State.modLeaf (l : Fin 8) (f : Leaf → Leaf) (s : State) : State :=
  s.modDm fun d => { d with leaves := vmod d.leaves l f }

/-- Every item of a range handled in ascending number (log 11). -/
def forEach {n : Nat} (f : Fin n → State → State) (s : State) : State :=
  (List.finRange n).foldl (fun s i => f i s) s

/-! ## Reports -/

/-- A value of a report from a number (R193). -/
def val (n : Nat) : Option Word16 := some (BitVec.ofNat 16 n)

/-- A value of a report from a signed number, two's complement (R193). -/
def valInt (i : Int) : Option Word16 := some (BitVec.ofInt 16 i)

/-- A report joins the queue (R9): it takes the present sequence and trip time, the counter rises by 1 and wraps, and
where 64 reports are held the oldest is discarded first. -/
def Link.place (l : Link) (event : Event) (item : Nat) (value : Option Word16) : Link :=
  let kept := if 64 ≤ l.reports.length then l.reports.drop 1 else l.reports
  { l with
    reports := kept ++ [{ seq := l.nextSeq, time := l.tripClock, event, item, value }]
    nextSeq := l.nextSeq + 1 }

/-- A block places a report (R9). -/
def report (event : Event) (item : Nat) (value : Option Word16) (s : State) : State :=
  s.modLi (·.place event item value)

/-! ## The free order -/

/-- The permutation of a list that a number codes: the remainder by the length picks the next item, the quotient codes
the rest. A list of at most one item is not permuted. -/
def permuteBy {α : Type} : Nat → Nat → List α → List α
  | _, _, [] => []
  | _, _, [x] => [x]
  | 0, _, l => l
  | fuel + 1, code, l =>
    let i := code % l.length
    (l[i]?).toList ++ permuteBy fuel (code / l.length) (l.eraseIdx i)

/-- What several blocks do within one step where the rules leave their order open (log 10): the units whose flag says
that they have something to do run one after another in a free order. -/
def inFreeOrder (units : List (Bool × (State → State))) (s : State) : State :=
  let active := (units.filter (·.1)).map (·.2)
  (permuteBy active.length (Config.order s.freeCount) active).foldl (fun s u => u s)
    { s with freeCount := s.freeCount + 1 }

end Sys2Proof.Machine
end

