-- ==== Sys2Proof/Machine/Operands.lean ====
section
/-! DEFINITION. The fields of requests, replies and readouts: where a field stands, its byte order, and the codes of
R189. -/

namespace Sys2Proof.Machine

/-! ## Reading fields (R192: least significant byte first, signed fields two's complement) -/

/-- The unsigned byte at offset `i`. -/
def u8 (p : List Byte) (i : Nat) : Nat := (p.getD i 0).toNat

/-- The unsigned two-byte field at offset `i`. -/
def u16 (p : List Byte) (i : Nat) : Nat := u8 p i + 256 * u8 p (i + 1)

/-- The unsigned four-byte field at offset `i`. -/
def u32 (p : List Byte) (i : Nat) : Nat := u16 p i + 65536 * u16 p (i + 2)

/-- A number of `bits` bits read as two's complement. -/
def asSigned (bits n : Nat) : Int := if n < 2 ^ (bits - 1) then n else (n : Int) - 2 ^ bits

/-- The signed two-byte field at offset `i`. -/
def s16 (p : List Byte) (i : Nat) : Int := asSigned 16 (u16 p i)

/-- The signed four-byte field at offset `i`. -/
def s32 (p : List Byte) (i : Nat) : Int := asSigned 32 (u32 p i)

/-- An item number below `n`, if the byte names one. -/
def item? (n : Nat) (b : Nat) : Option (Fin n) := if h : b < n then some ⟨b, h⟩ else none

/-- A wired channel number 0 to 23. -/
def wired? (b : Nat) : Option (Fin 24) := item? 24 b

/-- The wired channel a channel number 0 to 39 names, if it names one. -/
def asWired (ch : Fin 40) : Option (Fin 24) := item? 24 ch.val

/-- The network channel a channel number 0 to 39 names, if it names one. -/
def asNet (ch : Fin 40) : Option (Fin 16) := if 24 ≤ ch.val then item? 16 (ch.val - 24) else none

/-- The channel number of a wired channel. -/
def wiredCh (ch : Fin 24) : Fin 40 := ⟨ch.val, by omega⟩

/-- The channel number of a network channel. -/
def netCh (n : Fin 16) : Fin 40 := ⟨n.val + 24, by omega⟩

/-- An optional item number: 0xFF is absent (outer some, inner none), below `n` present, anything else refused. -/
def optItem? (n : Nat) (b : Nat) : Option (Option (Fin n)) :=
  if b = 0xFF then some none else (item? n b).map some

/-! ## Writing fields -/

/-- One byte. -/
def b1 (n : Nat) : List Byte := [BitVec.ofNat 8 n]

/-- Two bytes, low byte first. -/
def b2 (n : Nat) : List Byte := [BitVec.ofNat 8 n, BitVec.ofNat 8 (n / 256)]

/-- Four bytes, low byte first. -/
def b4 (n : Nat) : List Byte := b2 n ++ b2 (n / 65536)

/-- Two bytes of a signed number, two's complement. -/
def i2 (i : Int) : List Byte := b2 (i % 65536).toNat

/-- Four bytes of a signed number, two's complement; an unsigned 32-bit word goes through unchanged. -/
def i4 (i : Int) : List Byte := b4 (i % 4294967296).toNat

/-- A byte of flags, the first flag in bit 0. -/
def flags (fs : List Bool) : List Byte :=
  b1 (fs.foldr (fun f n => (if f then 1 else 0) + 2 * n) 0)

/-! ## Codes (R189) -/

def OpState.code : OpState → Nat
  | .starting => 0 | .config => 1 | .run => 2 | .shutdown => 3 | .parked => 4

def WiredKind.code : WiredKind → Nat
  | .off => 0 | .switch => 1 | .sender => 2

/-- The kind code of a network channel: NETWORK 3, OFF 0. -/
def NetCfg.kindCode (c : NetCfg) : Nat := if c.network then 3 else 0

def Status.code : Status → Nat
  | .off => 0 | .init => 1 | .valid => 2 | .held => 3 | .fault => 4 | .lost => 5

def WiringClass.code : WiringClass → Nat
  | .none => 0 | .shortGround => 1 | .openLoop => 2 | .shortBattery => 3 | .undetermined => 4

def BandMeaning.ofCode : Nat → Option BandMeaning
  | 0 => some .value | 1 => some .active | 2 => some .inactive | 3 => some .faultShort | 4 => some .faultOpen
  | _ => none

def ReadingClass.code : ReadingClass → Nat
  | .band i => i | .saturated => 0x10 | .stallLow => 0x11 | .stallMid => 0x12 | .stallHigh => 0x13

/-- The confirmed class field: none is 0xFF. -/
def classCode (c : Option ReadingClass) : Nat := (c.map ReadingClass.code).getD 0xFF

def LineLevel.code : LineLevel → Nat
  | .low => 0 | .mid => 1 | .high => 2

def Origin.code : Origin → Nat
  | .pass => 0 | .priority => 1

def SupplyState.code : SupplyState → Nat
  | .normal => 0 | .low => 1 | .high => 2

def MotionState.code : MotionState → Nat
  | .standstill => 0 | .moving => 1 | .unknown => 2

def PointerState.code : PointerState → Nat
  | .unpowered => 0 | .homing => 1 | .sweep => 2 | .tracking => 3 | .hold => 4 | .test => 5 | .parking => 6

def RangeInd.code : RangeInd → Nat
  | .none => 0 | .below => 1 | .above => 2

def WarnState.code : WarnState → Nat
  | .inactive => 0 | .delaying => 1 | .active => 2 | .acked => 3 | .retained => 4

def Priority.code : Priority → Nat
  | .notice => 0 | .advisory => 1 | .caution => 2 | .stop => 3

def Priority.ofCode : Nat → Option Priority
  | 0 => some .notice | 1 => some .advisory | 2 => some .caution | 3 => some .stop | _ => none

def Gating.ofCode : Nat → Option Gating
  | 0 => some .always | 1 => some .moving | 2 => some .standstill | _ => none

def Tone.ofCode : Nat → Option Tone
  | 0 => some .low | 1 => some .high | _ => none

def LampStyle.ofCode : Nat → Option LampStyle
  | 0 => some .steady | 1 => some .flash | _ => none

/-- An envelope-set byte; bits 4 to 7 must be clear (R191). -/
def envOfByte (b : Nat) : Option EnvSet := if b < 16 then some (BitVec.ofNat 4 b) else none

/-- A one-bit field: 0 or 1. -/
def boolOf : Nat → Option Bool
  | 0 => some false | 1 => some true | _ => none

def LeafState.code : LeafState → Nat
  | .locked => 0 | .closed => 1 | .opening => 2 | .opened => 3 | .closing => 4 | .obstructed => 5 | .released => 6
  | .unknown => 7

/-- A doorway's state: EMPTY is 8. -/
def doorwayCode (d : Option LeafState) : Nat := (d.map LeafState.code).getD 8

def Reading.code : Reading → Nat
  | .inactive => 0 | .active => 1 | .unknown => 2

def SwitchReading.code : SwitchReading → Nat
  | .inactive => 0 | .active => 1

def TrackerState.code : TrackerState → Nat
  | .absent => 0 | .pending => 1 | .confirmed => 2

def EndCause.code : EndCause → Nat
  | .leaveService => 1 | .motion => 2 | .shutdown => 3 | .stop => 4 | .endTests => 5 | .stopWarning => 6

/-- Reply outcomes (R189). -/
inductive ReplyOutcome where
  | accepted | acknowledged | none | notPending | renewed | entered | alreadyOn | left | notActive | ended
  | noneRunning
  deriving DecidableEq, Repr

def ReplyOutcome.code : ReplyOutcome → Nat
  | .accepted => 1 | .acknowledged => 2 | .none => 3 | .notPending => 4 | .renewed => 5 | .entered => 6
  | .alreadyOn => 7 | .left => 8 | .notActive => 9 | .ended => 10 | .noneRunning => 11

/-- Sources of R193. -/
def Event.sourceCode : Event → Nat
  | .stateChanged | .ignition | .watchWake | .watchQuiet | .referenceFailed | .referenceFault | .referenceGood
  | .supply | .serviceEntered | .serviceEnded | .testEnded | .chimeTestDone | .reclaimDone | .vehicleIdWritten => 0
  | .converted | .conversionDropped | .status | .switch | .switched | .channelLimited => 1
  | .motion => 2
  | .pointerState | .homingRestart | .gaugeLimited | .testReached => 3
  | .warningState => 4
  | .leafState | .closingTime | .doorwayState | .doorsClear => 5
  | .confirmedNew | .confirmedRepeat | .displaced | .notStored | .agedOut | .clearDone => 6

/-- Event codes of R193. -/
def Event.code : Event → Nat
  | .stateChanged => 1 | .ignition => 2 | .watchWake => 3 | .watchQuiet => 4 | .referenceFailed => 5
  | .referenceFault => 6 | .referenceGood => 7 | .supply => 8 | .serviceEntered => 9 | .serviceEnded => 10
  | .testEnded => 11 | .chimeTestDone => 12 | .reclaimDone => 13 | .vehicleIdWritten => 14
  | .converted => 1 | .conversionDropped => 2 | .status => 3 | .switch => 4 | .switched => 5 | .channelLimited => 6
  | .motion => 1
  | .pointerState => 1 | .homingRestart => 2 | .gaugeLimited => 3 | .testReached => 4
  | .warningState => 1
  | .leafState => 1 | .closingTime => 2 | .doorwayState => 3 | .doorsClear => 4
  | .confirmedNew => 1 | .confirmedRepeat => 2 | .displaced => 3 | .notStored => 4 | .agedOut => 5 | .clearDone => 6

/-- The 13 bytes of a report (R193): sequence, trip time, source, event, item, flags, value. -/
def Report.bytes (r : Report) : List Byte :=
  b2 r.seq.toNat ++ b4 r.time.toNat ++ b1 r.event.sourceCode ++ b1 r.event.code ++ b2 r.item
    ++ flags [r.value.isSome] ++ b2 ((r.value.map BitVec.toNat).getD 0)

/-- The selector and operand bytes of a freeze item; a selector without operand sends 0 (R191, log 21). -/
def Selector.bytes : Selector → List Byte
  | .gaugeValue g => b1 0 ++ b1 g.val
  | .channelValue ch => b1 1 ++ b1 ch.val
  | .supply => b1 2 ++ b1 0
  | .speed => b1 3 ++ b1 0
  | .doorWord => b1 4 ++ b1 0

/-- A freeze selector from its two bytes (R154); the operand of SUPPLY, SPEED and DOOR_WORD is ignored (R192). -/
def Selector.ofBytes (sel operand : Nat) : Option Selector :=
  match sel with
  | 0 => (item? 8 operand).map .gaugeValue
  | 1 => (item? 40 operand).map .channelValue
  | 2 => some .supply
  | 3 => some .speed
  | 4 => some .doorWord
  | _ => none

/-! ## Fault codes (R147) -/

/-- The 16-bit fault code: the class in the high byte, the number in the low byte. -/
def faultCode : FaultSource → Nat
  | .wiring ch => 0x0100 + ch.val
  | .netlost n => 0x0200 + (24 + n.val)
  | .gauge g => 0x0300 + g.val
  | .warning w => 0x0400 + w.val
  | .doorLock l => 0x0500 + l.val * 8
  | .doorSlow l => 0x0500 + l.val * 8 + 1
  | .doorInput l => 0x0500 + l.val * 8 + 2
  | .doorParked l => 0x0500 + l.val * 8 + 3
  | .system n => 0x0600 + n.val

/-- The place of a source among the 147 trackers, in ascending fault code. -/
def sourceIndex : FaultSource → Fin 147
  | .wiring ch => ⟨ch.val, by omega⟩
  | .netlost n => ⟨24 + n.val, by omega⟩
  | .gauge g => ⟨40 + g.val, by omega⟩
  | .warning w => ⟨48 + w.val, by omega⟩
  | .doorLock l => ⟨112 + l.val * 4, by omega⟩
  | .doorSlow l => ⟨112 + l.val * 4 + 1, by omega⟩
  | .doorInput l => ⟨112 + l.val * 4 + 2, by omega⟩
  | .doorParked l => ⟨112 + l.val * 4 + 3, by omega⟩
  | .system n => ⟨144 + n.val, by omega⟩

/-- The 147 fault sources in ascending fault code. -/
def allSources : List FaultSource :=
  (List.finRange 24).map .wiring ++ (List.finRange 16).map .netlost ++ (List.finRange 8).map .gauge
    ++ (List.finRange 64).map .warning
    ++ (List.finRange 8).flatMap (fun l => [.doorLock l, .doorSlow l, .doorInput l, .doorParked l])
    ++ (List.finRange 3).map .system

end Sys2Proof.Machine
end

