-- ==== Sys2Proof/Machine/Flags.lean ====
section
/-! DEFINITION. What is read off the state: effective channels, door conditions, envelopes, warning conditions, the
outputs, and the other yes-or-no questions the rules ask of it. -/

namespace Sys2Proof.Machine

/-! ## Operating state -/

/-- The part is in RUN. -/
abbrev State.inRun (s : State) : Prop := s.sc.opState = .run

/-- The part is in RUN or SHUTDOWN, where conversions, leaf evaluation and confirm timers go on. -/
abbrev State.live (s : State) : Prop := s.sc.opState = .run ∨ s.sc.opState = .shutdown

/-- A watch wake is under way (R28). -/
abbrev State.waking (s : State) : Prop := s.sc.opState = .parked ∧ s.sc.watch ≠ .quiet

/-- The ATTN output (R10). -/
def State.attn (s : State) : Bool := !s.li.reports.isEmpty || decide s.waking

/-! ## Channels -/

/-- The partner of a wired channel that is the primary of a mutual pair (R62): the lower-numbered of the two. -/
def Interp.primaryPartner (c : Interp) (ch : Fin 24) : Option (Fin 24) :=
  match c.wired[ch].cfg.partner with
  | some p => if c.wired[p].cfg.partner = some ch ∧ ch < p then some p else none
  | none => none

/-- The primary whose partner a wired channel is (R62). -/
def Interp.primaryOf (c : Interp) (ch : Fin 24) : Option (Fin 24) :=
  match c.wired[ch].cfg.partner with
  | some p => if c.wired[p].cfg.partner = some ch ∧ p < ch then some p else none
  | none => none

/-- The wired channel that supplies the effective status, value and reading of a wired channel (R62). -/
def Interp.supplier (c : Interp) (ch : Fin 24) : Fin 24 :=
  match c.primaryPartner ch with
  | some p => if c.wired[ch].switched then p else ch
  | none => ch

/-- A wired channel as a consumer sees one that supplies it. -/
def Wired.view (w : Wired) : ChanView :=
  { status := w.status, value := w.value.map Int.ofNat, reading := w.reading }

/-- A network channel as the consumers see it. -/
def Net.view (n : Net) : ChanView := { status := n.status, value := n.value, reading := none }

/-- The effective status, value and switch reading of a channel (R62). -/
def Interp.eff (c : Interp) (ch : Fin 40) : ChanView :=
  match asWired ch with
  | some w => c.wired[c.supplier w].view
  | none =>
    match asNet ch with
    | some n => c.net[n].view
    | none => { status := .off, value := none, reading := none }

/-- A channel is of kind SENDER or NETWORK (R18 checks 7 and 10). -/
def Interp.hasValue (c : Interp) (ch : Fin 40) : Bool :=
  match asWired ch with
  | some w => decide (c.wired[w].cfg.kind = .sender)
  | none => match asNet ch with
    | some n => c.net[n].cfg.network
    | none => false

/-- A channel is of kind SWITCH or NETWORK (R18 check 9, R94, R127). -/
def Interp.hasReading (c : Interp) (ch : Fin 40) : Bool :=
  match asWired ch with
  | some w => decide (c.wired[w].cfg.kind = .switch)
  | none => match asNet ch with
    | some n => c.net[n].cfg.network
    | none => false

/-- The wiring fault class is one the FM counts as present (R55). -/
def WiringClass.present : WiringClass → Bool
  | .shortGround | .openLoop | .shortBattery => true
  | .none | .undetermined => false

/-- The meaning of a reading class under a configuration: that of its band, none for a stall or saturation. -/
def WiredCfg.meaning (c : WiredCfg) : ReadingClass → Option BandMeaning
  | .band i => c.meanings[i]?
  | _ => none

/-- The side of the watch threshold a class lies on (R40); none is no side. -/
def WiredCfg.side (c : WiredCfg) : ReadingClass → Option Comparator
  | .band i =>
    match c.thresholds[i]? with
    | some upper =>
      if upper ≤ c.watchThr then some .below
      else if 0 < i ∧ c.watchThr ≤ c.thresholds.getD (i - 1) 0 then some .above
      else none
    | none => if 0 < i ∧ c.watchThr ≤ c.thresholds.getD (i - 1) 0 then some .above else none
  | .saturated | .stallLow => some .below
  | .stallMid | .stallHigh => some .above

/-- The channel has a comparator that RUN powers (R38). -/
def WiredCfg.watched (c : WiredCfg) : Bool := decide (c.kind = .switch) && c.watch

/-! ## Gauges -/

/-- A pointer state in which the gauge is driven (R77). -/
def PointerState.driven : PointerState → Bool
  | .homing | .sweep | .tracking | .test | .parking => true
  | .unpowered | .hold => false

/-- The gauge is in TEST, or in HOLD with resume state TEST (R183). -/
def Gauge.testing (g : Gauge) : Bool :=
  decide (g.pointer = .test) || (decide (g.pointer = .hold) && decide (g.resume = some .test))

/-! ## Warnings -/

/-- A gating holds under a motion state (R97). -/
def Gating.holds : Gating → MotionState → Bool
  | .always, _ => true
  | .moving, m => decide (m ≠ .standstill)
  | .standstill, m => decide (m = .standstill)

/-- A leaf set names a leaf. -/
def inLeafSet (leaves : BitVec 8) (l : Fin 8) : Bool := leaves.getLsbD l.val

/-- Some leaf of the set has the condition. -/
def anyLeaf (leaves : BitVec 8) (door : Vector DoorCond 8) (p : DoorCond → Bool) : Bool :=
  (List.finRange 8).any fun l => inLeafSet leaves l && p door[l]

/-- The condition value of a definition on a view, from the value it had (R95, R96). -/
def Condition.value (c : Condition) (v : View) (old : Bool) : Bool :=
  match c with
  | .switchActive ch =>
    let x := v.chan[ch]
    (decide (x.status = .valid) || decide (x.status = .held)) &&
      (match asWired ch with
        | some _ => decide (x.reading = some .active)
        | none => decide (x.value.getD 0 ≠ 0))
  | .valueBelow g t h =>
    match v.display[g] with
    | none => false
    | some d => if old then decide (d < t + h) else decide (d < t)
  | .valueAbove g t h =>
    match v.display[g] with
    | none => false
    | some d => if old then decide (t - h < d) else decide (t < d)
  | .channelFault ch => decide (v.chan[ch].status = .fault)
  | .channelLost ch => decide (v.chan[ch].status = .lost)
  | .doorNotSecure ls => anyLeaf ls v.door (·.notSecure)
  | .doorReleased ls => anyLeaf ls v.door (·.released)
  | .doorObstructed ls => anyLeaf ls v.door (·.obstructed)
  | .doorFault ls => anyLeaf ls v.door (·.fault)
  | .supplyLow => decide (v.supply = .low)
  | .supplyHigh => decide (v.supply = .high)
  | .motionUnknown => decide (v.motion = .unknown)

/-- A condition reads a channel. -/
def Condition.readsChannel (c : Condition) (ch : Fin 40) : Bool :=
  match c with
  | .switchActive x | .channelFault x | .channelLost x => decide (x = ch)
  | _ => false

/-- A condition reads a gauge's display value. -/
def Condition.readsGauge (c : Condition) (g : Fin 8) : Bool :=
  match c with
  | .valueBelow x _ _ | .valueAbove x _ _ => decide (x = g)
  | _ => false

/-- A condition reads a leaf's door conditions. -/
def Condition.readsLeaf (c : Condition) (l : Fin 8) : Bool :=
  match c with
  | .doorNotSecure ls | .doorReleased ls | .doorObstructed ls | .doorFault ls => inLeafSet ls l
  | _ => false

/-- A condition reads the supply state. -/
def Condition.readsSupply : Condition → Bool
  | .supplyLow | .supplyHigh => true
  | _ => false

/-- A definition reads the motion state, in its condition or its gating. -/
def WarnDef.readsMotion (d : WarnDef) : Bool :=
  decide (d.cond = .motionUnknown) || decide (d.gating ≠ .always)

/-- The instance is qualified on a view: its condition value is TRUE and its gating holds (R97). -/
def WarnInst.qualified (i : WarnInst) (d : WarnDef) (v : View) : Bool := i.cond && d.gating.holds v.motion

/-! ## Envelopes, lamps and chime -/

/-- The output of an envelope set at a phase (R115, R116): every wave of the set is on. -/
def envOn (env : EnvSet) (phase : Nat) : Bool :=
  (!env.getLsbD 0 || !phase.testBit 3) && (!env.getLsbD 1 || !phase.testBit 2) &&
    (!env.getLsbD 2 || !phase.testBit 1) && (!env.getLsbD 3 || !phase.testBit 0)

/-- The pattern period of an envelope set in steps (R116): that of its slowest wave, 16 for the empty set. -/
def envPeriod (env : EnvSet) : Nat :=
  if env.getLsbD 0 then 16 else if env.getLsbD 1 then 8 else if env.getLsbD 2 then 4
  else if env.getLsbD 3 then 2 else 16

/-- The pattern of a chime source: that of the warning's definition or of the test. It is read from the configuration in force,
so that in CONFIG after a STOP, while a tone still finishes its on-period (R124), a SET_WARNING or SET_PATTERN acts on that
tone at once: DESIGN CHOICE (log 43). -/
def State.sourcePattern (s : State) : Option Pattern :=
  match s.ao.source with
  | .none => none
  | .owner w _ => (s.wm.defs[w].bind (·.pattern)).bind fun p => s.ao.patterns[p]
  | .test p _ => s.ao.patterns[p]

/-- The CHIME output (R119): the tone that sounds now, if one does. -/
def State.chimeTone (s : State) : Option Tone :=
  match s.sourcePattern with
  | some p => if envOn p.env s.ao.phase then some p.tone else none
  | none => none

/-- A lamp output (R120): lit now. -/
def State.lampLit (s : State) (l : Fin 24) : Bool :=
  match s.ao.drive[l] with
  | .dark => false
  | .lit => true
  | .flash env => envOn env s.ao.phase

/-- At least one test is in force (R183). -/
def State.testsInForce (s : State) : Bool :=
  (List.finRange 8).any (fun g => s.ge[g].testing) || (List.finRange 24).any (fun l => s.ao.overrides[l].isSome)
    || s.ao.chimeTest.isSome

/-! ## Doors -/

/-- The five input slots of a leaf (R126). -/
abbrev slotClosed : Fin 5 := 0
abbrev slotLocked : Fin 5 := 1
abbrev slotOpenEnd : Fin 5 := 2
abbrev slotEdge : Fin 5 := 3
abbrev slotRelease : Fin 5 := 4

/-- The input mapped to a slot, where it counts as mapped (R127). -/
def Leaf.input (l : Leaf) (slot : Fin 5) : Option LeafInput :=
  match l.cfg with
  | some c => if l.counted[slot] then c.inputs[slot] else none
  | none => none

/-- The leaf has a lock input (section 8.1). -/
def Leaf.hasLock (l : Leaf) : Bool := (l.input slotLocked).isSome

/-- The leaf has an open-end input (section 8.1). -/
def Leaf.hasOpenEnd (l : Leaf) : Bool := (l.input slotOpenEnd).isSome

/-- The leaf's RELEASE is mapped. -/
def Leaf.hasRelease (l : Leaf) : Bool := (l.input slotRelease).isSome

/-- A leaf state is secure for a leaf with or without a lock input (section 8.1). -/
def secureState (hasLock : Bool) (st : LeafState) : Bool :=
  decide (st = .locked) || (decide (st = .closed) && !hasLock)

/-- The leaf is secure. -/
def Leaf.secure (l : Leaf) : Bool := secureState l.hasLock l.state

/-- The four door conditions of a leaf (R136). -/
def Leaf.conds (l : Leaf) : DoorCond :=
  { notSecure := !l.secure, released := decide (l.state = .released), obstructed := decide (l.state = .obstructed),
    fault := l.inputFault || l.lockFault || l.slow }

/-- How bad a leaf state is for its doorway (R134): LOCKED least, UNKNOWN most. -/
def LeafState.badness : LeafState → Nat
  | .locked => 0 | .closed => 1 | .closing => 2 | .opening => 3 | .opened => 4 | .obstructed => 5 | .released => 6
  | .unknown => 7

/-- The worse of two leaf states. -/
def LeafState.worse (a b : LeafState) : LeafState := if a.badness < b.badness then b else a

/-- The state of a doorway from the leaves (R134): the worst state among the configured leaves that name it, or none
for EMPTY. -/
def DoorMon.worst (d : DoorMon) (w : Fin 4) : Option LeafState :=
  (List.finRange 8).foldl (fun acc i =>
    match d.leaves[i].cfg with
    | some c =>
      if c.doorway = w then
        some (match acc with
          | some st => st.worse d.leaves[i].state
          | none => d.leaves[i].state)
      else acc
    | none => acc) none

/-- Every configured leaf is secure (R135). -/
def DoorMon.allSecure (d : DoorMon) : Bool :=
  (List.finRange 8).all fun i => d.leaves[i].cfg.isNone || d.leaves[i].secure

/-- The word of the DOOR_WORD selector (R154): leaf i in bits 4i to 4i + 3, 0xF where it is unconfigured. -/
def DoorMon.word (d : DoorMon) : Nat :=
  (List.finRange 8).foldr (fun i n => (if d.leaves[i].cfg.isSome then d.leaves[i].state.code else 0xF) + 16 * n) 0

/-! ## Journal -/

/-- A program is in flight: a record, copy, header or row program, but not an erase (R168). -/
def Journal.programming (j : Journal) : Bool :=
  match j.inFlight with
  | some .erase => false
  | some _ => true
  | none => false

/-- The commit queue is empty and no program is in flight (R23, R28). -/
def Journal.drained (j : Journal) : Bool := j.queue.isEmpty && !j.programming

/-- The head sector has a blank slot. -/
def Journal.headRoom (j : Journal) : Bool := decide (j.sectors[j.head].slots.length < 48)

/-- A sector is ERASED (R165). -/
def Sector.isErased (x : Sector) : Bool := decide (x.header = .blank) && x.slots.isEmpty

/-- The sector after one in ring order (R165). -/
def nextInRing (x : Fin 4) : Fin 4 := x + 1

/-! ## Line -/

/-- The line bits of a character (R1): a start bit, eight data bits least significant first, a stop bit. -/
def charBits (b : Byte) : List Bool := false :: (List.range 8).map b.getLsbD ++ [true]

/-- The bits of the reply in progress on TXD (R1), back to back; none while the line rests idle. -/
def State.txdBits (s : State) : List Bool :=
  match s.li.transmitter with
  | .idle => []
  | .answering reply => reply.flatMap charBits

/-- The level of TXD (R1) in bit time `n` of the reply in progress; it rests high while the transmitter is IDLE and after the
last stop bit. -/
def State.txd (s : State) (n : Nat) : Bool := (s.txdBits[n]?).getD true

end Sys2Proof.Machine
end

