-- ==== Sys2Proof/Machine/Alert.lean ====
section
/-! DEFINITION. The Alert Output Unit (chapter 7): lamp claims and drives, the claimant and the switch of the chime, the
envelope generator, the bulb check and the test overrides. -/

namespace Sys2Proof.Machine

/-! ## Lamps (R120 to R122) -/

/-- The claim of a list entry on a lamp: none, STEADY (lit) or FLASH. -/
def State.entryClaim (s : State) (l : Fin 24) (e : ListEntry) : Drive :=
  match s.wm.defs[e.w] with
  | some d =>
    if d.lamp = some l then
      if e.state = .acked then .lit
      else match d.style with
        | .steady => .lit
        | .flash => .flash d.env
    else .dark
  | none => .dark

/-- The strongest of some claims: the first FLASH, else STEADY, else none. -/
def strongest : List Drive → Drive
  | [] => .dark
  | .flash env :: _ => .flash env
  | .lit :: rest =>
    match strongest rest with
    | .flash env => .flash env
    | _ => .lit
  | .dark :: rest => strongest rest

/-- The claim of a lamp (R120); an UNUSED lamp carries none (R113). -/
def State.lampClaim (s : State) (l : Fin 24) : Drive :=
  if s.ao.used[l] then strongest (s.ao.listCopy.map (s.entryClaim l)) else .dark

/-- The drive of a lamp: a test override first, then the bulb check, then the claim (R121, R122). -/
def State.lampDrive (s : State) (l : Fin 24) : Drive :=
  match s.ao.overrides[l] with
  | some true => .lit
  | some false => .dark
  | none => if s.ao.bulb.isSome then .lit else s.lampClaim l

/-- Every lamp takes up its drive. -/
def refreshLamps (s : State) : State := s.modAo fun a => { a with drive := tab s.lampDrive }

/-! ## The claimant and the switch (R117, R118) -/

/-- A list entry may claim the chime (R117). -/
def State.claimsChime (s : State) (e : ListEntry) : Bool :=
  (decide (e.state = .active) || decide (e.state = .retained)) &&
    match s.wm.defs[e.w] with
    | some d => d.pattern.isSome && (decide (s.ao.floorCopy.code ≤ d.priority.code) || decide (d.priority = .stop)) &&
        decide (s.ao.finished[e.w] ≠ some e.act)
    | none => false

/-- The claimant (R117): a running chime test, else the first entry that may claim. -/
def State.claimantNow (s : State) : ChimeSource :=
  match s.ao.chimeTest with
  | some p => .test p s.ao.testGen
  | none =>
    match s.ao.listCopy.find? s.claimsChime with
    | some e => .owner e.w e.act
    | none => .none

/-- Outside RUN the generator stops at phase 0 once the chime is silent with source NONE (R115, R124). -/
def stopGenerator (s : State) : State :=
  if s.sc.opState ≠ .run ∧ s.ao.source = .none then
    s.modAo fun a => { a with genRunning := false, phase := 0, genQ := 0 }
  else s

/-- The switch (R118): the claimant becomes the source, the burst starts again and the generator restarts at phase 0.
`genQ` is the time already spent in that phase: none, but for a switch made at a step of the generator (log 7). -/
def chimeSwitch (genQ : Nat) (s : State) : State :=
  stopGenerator (s.modAo fun a => { a with source := a.claimant, burst := 0, phase := 0, genQ })

/-- A derivation of the claimant (R117): a switch at once where it differs from the source and CHIME is silent. -/
def deriveChime (s : State) : State :=
  let s := s.modAo fun a => { a with claimant := s.claimantNow }
  if s.ao.claimant ≠ s.ao.source ∧ s.chimeTone = none then chimeSwitch 0 s else s

/-! ## Hand-overs of the WM (R101, R108) -/

/-- The active warning list as the WM hands it. -/
def State.listEntries (s : State) : List ListEntry :=
  s.wm.list.map fun w => { w, state := s.wm.inst[w].state, act := (s.wm.inst[w].act).getD 0 }

/-- The AO takes the list (R117, R120). -/
def takeList (s : State) : State :=
  deriveChime (refreshLamps (s.modAo fun a => { a with listCopy := s.listEntries }))

/-- The AO takes the chime floor (R117). -/
def takeFloor (s : State) : State := deriveChime (s.modAo fun a => { a with floorCopy := s.wm.floor })

/-! ## The generator's step (R115, R116, R119) -/

/-- The on-period of an envelope set ends at the step to this phase (R116). -/
def onPeriodEnds (env : EnvSet) (phase : Nat) : Bool :=
  if env = 0 then decide (phase = 0) else !envOn env phase

/-- The repeats of the present source are finished (R119, R123): a warning's activation is recorded, a running chime
test ends with its report; the claimant is derived and the switch made at once, the tone being off. -/
def finishBurst (genQ : Nat) (s : State) : State :=
  let s := match s.ao.source with
    | .owner w act => s.modAo fun a => { a with finished := vset a.finished w (some act) }
    | .test p gen =>
      if s.ao.chimeTest.isSome ∧ s.ao.testGen = gen then
        report .chimeTestDone 0 (val p.val) (s.modAo fun a => { a with chimeTest := none })
      else s
    | .none => s
  let s := s.modAo fun a => { a with claimant := s.claimantNow }
  if s.ao.claimant ≠ s.ao.source then chimeSwitch genQ s else s

/-- A completed pattern period is counted (R119; the count stops at 15, log 27). -/
def countPeriod (completed : Bool) (s : State) : State :=
  if completed then s.modAo fun a => { a with burst := min 15 (a.burst + 1) } else s

/-- What a step to `phase` does to the chime of a pattern (R118, R119): the last repeat finishes the burst; else the
switch is made where another claims the chime and the on-period has ended. -/
def burstStep (p : Pattern) (completed : Bool) (phase genQ : Nat) (s : State) : State :=
  if completed ∧ p.rep ≠ 0 ∧ s.ao.burst = p.rep then finishBurst genQ s
  else if s.ao.claimant ≠ s.ao.source ∧ onPeriodEnds p.env phase then chimeSwitch genQ s
  else s

/-- The generator's phase advances; `genQ` is the time already spent in the new phase (log 7). -/
def generatorStep (genQ : Nat) (s : State) : State :=
  let phase := (s.ao.phase + 1) % 16
  let s := s.modAo fun a => { a with phase, genQ }
  match s.ao.source, s.sourcePattern with
  | .none, _ => s
  | _, none => if s.ao.claimant ≠ s.ao.source then chimeSwitch genQ s else s
  | _, some p =>
    let completed := decide (phase % envPeriod p.env = 0)
    burstStep p completed phase genQ (countPeriod completed s)

/-! ## RUN entry and the end of RUN (R124), tests (R122, R123) -/

/-- The AO at RUN entry: generator and bulb check started, chime and tests cleared, the empty list and the reset floor
taken. -/
def alertsRunEntry (s : State) : State :=
  refreshLamps (s.modAo fun a =>
    { a with
      genRunning := true, phase := 0, genQ := 0, bulb := some 3000, source := .none, claimant := .none, burst := 0,
      finished := Vector.replicate 64 none, overrides := Vector.replicate 24 none, chimeTest := none,
      listCopy := [], floorCopy := .notice })

/-- The AO at SHUTDOWN and STOP: the bulb check ends and the empty list is taken, so that lamps go dark and the chime
falls silent after its on-period. -/
def alertsLeaveRun (s : State) : State :=
  let s := refreshLamps (s.modAo fun a => { a with bulb := none, listCopy := [] })
  stopGenerator (deriveChime s)

/-- The AO at an end of tests (R122, R123). -/
def alertsEndTests (s : State) : State :=
  deriveChime (refreshLamps (s.modAo fun a =>
    { a with overrides := Vector.replicate 24 none, chimeTest := none }))

end Sys2Proof.Machine
end

