-- ==== Sys2Proof/Machine/Journal.lean ====
section
/-! DEFINITION. The Journal Controller (chapter 10): records and keys, the commit queue, the choice of the next array
operation, head and reclaim, liveness, what a reset cuts off, and the rebuild. -/

namespace Sys2Proof.Machine

/-! ## Records (R166, R172) -/

/-- The key of a record (R166). -/
def Content.key : Content → Key
  | .faultEntry e => .fault e.src
  | .clearMark => .clearMark
  | .cycle _ _ => .cycle
  | .doorStats _ => .doorStats
  | .vid _ => .vid

/-- A record is a VID record (R168). -/
def Content.isVid : Content → Bool
  | .vid _ => true
  | _ => false

/-- The complete records of a sector, in slot order; a void slot counts as none (R166). -/
def Sector.records (x : Sector) : List Record :=
  x.slots.filterMap fun
    | .record r => some r
    | .void => none

/-- The complete records of the four sectors. -/
def Journal.records (j : Journal) : List Record := (List.finRange 4).flatMap fun i => j.sectors[i].records

/-- No record of the same key has a higher sequence number (R170). -/
def newestOfKey (rs : List Record) (r : Record) : Bool :=
  rs.all fun x => decide (x.content.key ≠ r.content.key) || decide (x.seq ≤ r.seq)

/-- A FAULT_ENTRY record that names `src` as displaced. -/
def Record.displacesSource (r : Record) (src : FaultSource) : Bool :=
  match r.content with
  | .faultEntry e => decide (e.displaces = some src)
  | _ => false

/-- A record is live among `rs` under the current ignition cycle number (R172). -/
def live (cycle : Nat) (rs : List Record) (r : Record) : Bool :=
  match r.content with
  | .faultEntry e =>
    (rs.all fun x => decide (x.content.key ≠ .clearMark) || decide (x.seq < r.seq)) &&
      (rs.all fun x => !(decide (r.seq < x.seq) && x.displacesSource e.src)) &&
      decide (cycle - e.lastCycle < 40)
  | _ => newestOfKey rs r

/-- A tail record is to be copied (R170): live, the newest of its key, and not already outside the tail. -/
def Journal.copyable (j : Journal) (cycle : Nat) (tail : Fin 4) (r : Record) : Bool :=
  live cycle j.records r && newestOfKey j.records r &&
    (List.finRange 4).all fun i =>
      decide (i = tail) ||
        j.sectors[i].records.all fun x => !(decide (x.content.key = r.content.key) && decide (x.seq = r.seq))

/-- The first slot, counted from `n`, whose record passes the test. -/
def findSlot (ok : Record → Bool) : Nat → List Slot → Option (Nat × Record)
  | _, [] => none
  | n, .record r :: rest => if ok r then some (n, r) else findSlot ok (n + 1) rest
  | n, .void :: rest => findSlot ok (n + 1) rest

/-- The next tail record to copy, from the slot the reclaim names (R170). -/
def Journal.nextCopy (j : Journal) (cycle : Nat) (tail : Fin 4) (slot : Nat) : Option (Nat × Record) :=
  findSlot (j.copyable cycle tail) slot (j.sectors[tail].slots.drop slot)

/-! ## Head and reclaim (R169) -/

/-- A head advance is due (R169): the head sector has no blank slot and the next sector is ERASED. -/
def Journal.advanceDue (j : Journal) : Bool := !j.headRoom && j.sectors[nextInRing j.head].isErased

/-- The sector sequence of an IN_USE sector. -/
def Sector.seq? (x : Sector) : Option Nat :=
  match x.header with
  | .sequence n => some n
  | _ => none

/-- The sector among `is` with the best sector sequence, `better a b` saying that `a` beats `b`. -/
def Journal.pick (j : Journal) (better : Nat → Nat → Bool) (is : List (Fin 4)) : Option (Fin 4 × Nat) :=
  is.foldl (fun acc i =>
    match j.sectors[i].seq?, acc with
    | some n, some (k, m) => if better n m then some (i, n) else some (k, m)
    | some n, none => some (i, n)
    | none, _ => acc) none

/-- The tail (R169): the IN_USE sector with the lowest sector sequence other than the head. -/
def Journal.tail? (j : Journal) : Option (Fin 4) :=
  (j.pick (fun a b => decide (a < b)) ((List.finRange 4).filter (· ≠ j.head))).map (·.1)

/-- The reclaim starts on the tail where no sector other than the head is ERASED (R169). -/
def Journal.startReclaim (j : Journal) : Journal :=
  if (List.finRange 4).any fun i => decide (i ≠ j.head) && j.sectors[i].isErased then j
  else match j.tail? with
    | some t => { j with reclaim := .copying t 0 }
    | none => j

/-! ## The choice of the next operation (R168) -/

/-- A program starts: the array is taken and its time begins. -/
def Journal.begin (j : Journal) (op : ArrayOp) : Journal := { j with inFlight := some op, opMs := 0 }

/-- Lines 5 and 6 of R168: the erase runs or resumes, or the array stays free. -/
def Journal.eraseOrFree (j : Journal) : Journal :=
  match j.reclaim with
  | .erasing _ _ => { j with inFlight := some .erase }
  | _ => j

/-- Lines 4 to 6 of R168: the queue's head record is programmed where it can be, and takes the next record sequence
as its program starts (R166). -/
def Journal.serveQueue (j : Journal) : Journal :=
  match j.queue with
  | [] => j.eraseOrFree
  | c :: rest =>
    match c with
    | .vid chars =>
      { j with queue := rest, nextRec := j.nextRec + 1 }.begin (.row j.nextRec chars)
    | _ =>
      if j.headRoom then
        { j with queue := rest, nextRec := j.nextRec + 1 }.begin (.program { seq := j.nextRec, content := c })
      else j.eraseOrFree

/-- The choice of R168, made when the array is free, which it is not while a soft restart lets a program run to its end
(R179); `cycle` is the SC's ignition cycle number. A copy that finds the head sector full, which R170 rules out, waits
(log 35). -/
def Journal.choose (j : Journal) (cycle : Nat) : Journal :=
  if j.inFlight.isSome || j.finishing.isSome then j
  else if j.advanceDue then j.begin (.header (nextInRing j.head))
  else match j.reclaim with
    | .copying tail slot =>
      match j.nextCopy cycle tail slot with
      | some (i, r) => if j.headRoom then { j with reclaim := .copying tail (i + 1) }.begin (.copy r) else j
      | none =>
        -- the copy phase ends; the tail's header is unreadable from the start of its erase (R171)
        { j with
          sectors := vmod j.sectors tail fun x => { x with header := .unreadable }
          reclaim := .erasing tail 0 }.serveQueue
    | _ => j.serveQueue

/-- The JC chooses the next operation. -/
def jcChoose (s : State) : State := s.modJc (·.choose s.sc.cycle)

/-! ## The commit queue (R167) -/

/-- A record joins the queue at the tail, or takes the place of the queued record of its key. -/
def enqueue (q : List Content) (c : Content) : List Content :=
  if q.any (fun x => decide (x.key = c.key)) then q.map fun x => if x.key = c.key then c else x
  else q ++ [c]

/-- A block queues a record (R167). A free array serves it at once (R168); a running erase is suspended for it while
the head sector has a blank slot (R171). -/
def queueRecord (c : Content) (s : State) : State :=
  let j := { s.jc with queue := enqueue s.jc.queue c }
  let j := if j.inFlight = some .erase ∧ j.headRoom then { j with inFlight := none } else j
  { s with jc := j.choose s.sc.cycle }

/-- The FM removes a queued FAULT_ENTRY record by its key (R167). -/
def unqueueFault (src : FaultSource) (s : State) : State :=
  s.modJc fun j => { j with queue := j.queue.filter fun x => decide (x.key ≠ .fault src) }

/-- The FM removes every queued FAULT_ENTRY record (R160). -/
def unqueueFaults (s : State) : State :=
  s.modJc fun j => { j with queue := j.queue.filter fun
    | .faultEntry _ => false
    | _ => true }

/-! ## Completions -/

/-- A record or copy stands in the head slot, and the head moves on (R168). -/
def Journal.writeSlot (j : Journal) (x : Slot) : Journal :=
  { j with sectors := vmod j.sectors j.head fun sec => { sec with slots := sec.slots ++ [x] } }

/-- A header program has completed (R169): the sector is IN_USE and the head stands at its slot 0. -/
def Journal.writeHeader (j : Journal) (x : Fin 4) : Journal :=
  { j with
    sectors := vset j.sectors x { header := .sequence j.nextSector, slots := [] }
    nextSector := j.nextSector + 1
    head := x }

/-- What a completed program leaves in the array. -/
def Journal.finish (j : Journal) : ArrayOp → Journal
  | .program r | .copy r => j.writeSlot (.record r)
  | .header x => j.writeHeader x
  | .row seq chars => { j with row := .written seq chars }
  | .erase => j

/-- The time of a program (R165): 5 ms for the row, 3 ms for the others. -/
def ArrayOp.ms : ArrayOp → Nat
  | .row _ _ => 5
  | .erase => 120
  | _ => 3

/-! ## Resets (R178, R179) -/

/-- The time of a rebuild (R173): 15 ms, 3 ms more on a blank journal, 120 ms for each sector erased again. -/
def Journal.rebuildTime (j : Journal) : Nat :=
  15 + (if (List.finRange 4).all (fun i => j.sectors[i].seq?.isNone) then 3 else 0)
    + 120 * ((List.finRange 4).filter fun i => decide (j.sectors[i].header = .unreadable)).length

/-- What a hard reset cuts off (R178): a record program leaves a void slot, a row program a SPOILED row, a header
program an unreadable header; an erase has already left its tail's header unreadable. -/
def Journal.cutOff (j : Journal) : Option ArrayOp → Journal
  | some (.program _) | some (.copy _) => j.writeSlot .void
  | some (.header x) => { j with sectors := vmod j.sectors x fun sec => { sec with header := .unreadable } }
  | some (.row _ _) => { j with row := .spoiled }
  | some .erase | none => j

/-- The identity row once the commit queue is lost: a VID record that was only queued leaves it BLANK (R175). -/
def IdRow.afterQueueLost : IdRow → IdRow
  | .programming => .blank
  | r => r

/-- The non-volatile parts of the JC after a hard reset (R178), with the rest as R179 gives. A rebuild of a blank
journal that was programming S0's header leaves it unreadable. -/
def Journal.hardReset (j : Journal) (inRebuild : Bool) : Journal :=
  let blank := (List.finRange 4).all fun i => j.sectors[i].seq?.isNone
  let op :=
    if inRebuild && j.finishing.isNone && blank && decide (j.rebuildMs ≤ 3) then some (.header 0)
    else if j.finishing.isSome then j.finishing else j.inFlight
  let k := j.cutOff op
  let k := { Journal.reset with sectors := k.sectors, row := k.row.afterQueueLost, factory := k.factory }
  { k with rebuildMs := k.rebuildTime }

/-- The JC when a soft restart begins (R179): a program in flight runs to its end with its completion handed to no
block, an erase is abandoned, the queue is lost; the rebuild begins when the program has completed. -/
def Journal.softRestart (j : Journal) : Journal :=
  let finishing := match j.inFlight with
    | some .erase => none
    | op => op
  let row := match finishing with
    | some (.row _ _) => j.row
    | _ => j.row.afterQueueLost
  let k : Journal :=
    { Journal.reset with
      sectors := j.sectors, head := j.head, nextSector := j.nextSector, row, factory := j.factory, finishing,
      opMs := j.opMs }
  { k with rebuildMs := k.rebuildTime }

/-- The program that a soft restart let run has completed (R179); the rebuild begins. -/
def Journal.finishRestart (j : Journal) (op : ArrayOp) : Journal :=
  let k := { j.finish op with finishing := none, opMs := 0 }
  { k with rebuildMs := k.rebuildTime }

/-! ## The rebuild (R173, R174) -/

/-- The highest of some numbers, 0 for none. R173 names no number for an array that is not blank and holds no complete record;
that 0 stands for the highest there, so that the next record sequence is 1, is DEDUCED (log 45). -/
def highest (ns : List Nat) : Nat := ns.foldl max 0

/-- The sequence number in the identity row. -/
def IdRow.seq : IdRow → Nat
  | .written n _ => n
  | _ => 0

/-- The array as the rebuild leaves it (R173): sectors with an unreadable header erased again, head and next sequence
numbers set, S0's header programmed on a blank journal. -/
def Journal.readBack (j : Journal) : Journal :=
  let k : Journal := { j with
    sectors := vmap (fun x : Sector => if x.header = .unreadable then Sector.erased else x) j.sectors
    queue := [], inFlight := none, opMs := 0, reclaim := .idle, row := j.row.afterQueueLost }
  match k.pick (fun a b => decide (b < a)) (List.finRange 4) with
  | some (i, n) =>
    { k with
      head := i, nextSector := n + 1
      nextRec := highest (k.row.seq :: k.records.map (fun r : Record => r.seq)) + 1 }
  | none =>
    { k with
      sectors := vset k.sectors 0 { header := .sequence 1, slots := [] }
      head := 0, nextRec := 1, nextSector := 2 }

/-- The head advance and the reclaim start that the rebuild makes before its completion (R174). -/
def Journal.afterRebuild (j : Journal) : Journal :=
  (if j.advanceDue then j.writeHeader (nextInRing j.head) else j).startReclaim

/-- The content of the newest record that `f` accepts. -/
def newestContent {α : Type} (rs : List Record) (f : Content → Option α) : Option α :=
  (rs.foldl (fun acc r =>
    match f r.content, acc with
    | some a, some (n, b) => if n ≤ r.seq then some (r.seq, a) else some (n, b)
    | some a, none => some (r.seq, a)
    | none, _ => acc) (none : Option (Nat × α))).map (·.2)

/-- The cycle number and operating seconds of the newest CYCLE record, 0 and 0 without one (R26). -/
def Journal.cycleFound (j : Journal) : Nat × Nat :=
  (newestContent j.records fun
    | .cycle n t => some (n, t)
    | _ => none).getD (0, 0)

/-- The statistics of the newest DOOR_STATS record, zero and absent without one (R141). -/
def Journal.statsFound (j : Journal) : Vector DoorStats 8 :=
  (newestContent j.records fun
    | .doorStats v => some v
    | _ => none).getD (Vector.replicate 8 .zero)

/-- The fault entries handed to the FM (R174): of every code the newest record, where it is live, duplicates once. -/
def Journal.faultsFound (j : Journal) (cycle : Nat) : List FaultEntry :=
  let rs := j.records
  rs.foldl (fun acc r =>
    match r.content with
    | .faultEntry e =>
      if live cycle rs r && newestOfKey rs r && acc.all (fun x => decide (x.src ≠ e.src)) then acc ++ [e] else acc
    | _ => acc) []

/-- The vehicle identity, where the row is WRITTEN (R174). -/
def Journal.identity (j : Journal) : Option (List Byte) :=
  match j.row with
  | .written _ chars => some chars
  | _ => none

end Sys2Proof.Machine
end

