-- ==== Sys2Proof/Machine/FaultMemory.lean ====
section
/-! DEFINITION. The Fault Memory (chapter 9): trackers, confirmation, fault entries, freeze frames, displacement, aging,
clear and rebuild. -/

namespace Sys2Proof.Machine

/-! ## Sources (R147) -/

/-- The confirm time in ms of a timed source, none for an immediate one (R147). -/
def confirmTime : FaultSource → Option Nat
  | .wiring _ => some 2000
  | .system n => if n = 0 then none else some 5000
  | _ => none

/-- The severity of a source (R147); that of a WARNING source is its definition's priority. -/
def State.severity (s : State) : FaultSource → Priority
  | .wiring _ | .netlost _ => .caution
  | .gauge _ => .advisory
  | .warning w => ((s.wm.defs[w]).map (·.priority)).getD .notice
  | .doorLock _ | .doorSlow _ | .doorInput _ => .caution
  | .doorParked _ => .stop
  | .system n => if n = 0 then .stop else .caution

/-- The tracker of a source. -/
def FaultMem.tracker (f : FaultMem) (src : FaultSource) : Tracker := f.trackers[sourceIndex src]

/-- The presence of a source as last handed (R148). -/
def FaultMem.present (f : FaultMem) (src : FaultSource) : Bool := f.presence[sourceIndex src]

/-- A tracker set. -/
def setTracker (src : FaultSource) (t : Tracker) (s : State) : State :=
  s.modFm fun f => { f with trackers := vset f.trackers (sourceIndex src) t }

/-! ## Freeze frames (R154, R155) -/

/-- The value a selector captures, as its owner holds it now (R154). -/
def State.freezeValue (s : State) : Selector → Option Int
  | .gaugeValue g => s.ge[g].display
  | .channelValue ch =>
    let v := s.ci.eff ch
    if v.status = .valid ∨ v.status = .held then v.value else none
  | .supply => s.ci.supplyMv.map Int.ofNat
  | .speed =>
    match s.ci.motionChannel with
    | some ch =>
      let v := s.ci.eff ch
      if v.status = .valid ∨ v.status = .held then v.value else none
    | none => none
  | .doorWord => some s.dm.word

/-- The frame of a new entry: one item for each selector of the freeze set, in set order (R155). -/
def State.capture (s : State) : List FreezeItem :=
  s.fm.freeze.map fun sel => { sel, value := s.freezeValue sel }

/-! ## The index (R151) -/

/-- An entry stands before another in the index: first-seen ascending, then code ascending (R151). -/
def FaultEntry.before (a b : FaultEntry) : Bool :=
  decide (a.firstSeen < b.firstSeen) ||
    (decide (a.firstSeen = b.firstSeen) && decide (faultCode a.src < faultCode b.src))

/-- An entry takes its place in the index. -/
def insertEntry (e : FaultEntry) : List FaultEntry → List FaultEntry
  | [] => [e]
  | x :: xs => if e.before x then e :: x :: xs else x :: insertEntry e xs

/-- An entry is a weaker victim than another (R157): lower severity, then lower occurrence, then older last-seen, then
lower code. -/
def FaultEntry.weaker (a b : FaultEntry) : Bool :=
  decide (a.severity.code < b.severity.code) || (decide (a.severity.code = b.severity.code) &&
    (decide (a.occurrence < b.occurrence) || (decide (a.occurrence = b.occurrence) &&
      (decide (a.lastSeen < b.lastSeen) || (decide (a.lastSeen = b.lastSeen) &&
        decide (faultCode a.src < faultCode b.src))))))

/-- The weakest of some entries. -/
def weakest (es : List FaultEntry) : Option FaultEntry :=
  es.foldl (fun acc e =>
    match acc with
    | some w => if e.weaker w then some e else some w
    | none => some e) none

/-- The victim of a displacement (R157): the weakest entry whose tracker is not CONFIRMED. -/
def FaultMem.victim (f : FaultMem) : Option FaultEntry :=
  weakest (f.index.filter fun e => decide ((f.tracker e.src).state ≠ .confirmed))

/-- The record content of an entry (R156): the displaces field only while displaces pending is set. -/
def FaultEntry.recorded (e : FaultEntry) : FaultEntry :=
  { e with displaces := if e.dispPending then e.displaces else none, dispPending := false }

/-- A FAULT_ENTRY record is queued for an entry (R156). -/
def queueEntry (e : FaultEntry) (s : State) : State := queueRecord (.faultEntry e.recorded) s

/-! ## Confirmation (R152, R153, R157, R158) -/

/-- An entry updated by a further confirmation (R152). -/
def FaultEntry.repeated (e : FaultEntry) (severity : Priority) (seconds cycle : Nat) : FaultEntry :=
  { e with
    severity
    occurrence := min 255 (e.occurrence + 1)
    lastSeen := max e.lastSeen seconds
    lastCycle := max e.lastCycle cycle }

/-- The entry a first confirmation makes (R153). -/
def State.newEntry (s : State) (src : FaultSource) (displaces : Option FaultSource) : FaultEntry :=
  { src, severity := s.severity src, occurrence := 1, firstSeen := s.sc.opSeconds, lastSeen := s.sc.opSeconds,
    firstCycle := s.sc.cycle, lastCycle := s.sc.cycle, frame := s.capture, displaces,
    dispPending := displaces.isSome }

/-- An entry is created, its record queued and CONFIRMED_NEW placed (R153). -/
def createEntry (src : FaultSource) (displaces : Option FaultSource) (s : State) : State :=
  let e := s.newEntry src displaces
  let s := s.modFm fun f => { f with index := insertEntry e f.index }
  report .confirmedNew (faultCode src) (val 1) (queueEntry e s)

/-- The victim leaves the index and its queued record the commit queue; DISPLACED is placed (R157). -/
def displaceEntry (victim src : FaultSource) (s : State) : State :=
  let s := s.modFm fun f => { f with index := f.index.filter fun e => decide (e.src ≠ victim) }
  report .displaced (faultCode victim) (val (faultCode src)) (unqueueFault victim s)

/-- The confirmation of a source: R152 where it has an entry, R153 where there is room, R157 where a victim makes room,
R158 where there is none. -/
def confirmFault (src : FaultSource) (s : State) : State :=
  match s.fm.index.find? fun e => decide (e.src = src) with
  | some e =>
    let e' := e.repeated (s.severity src) s.sc.opSeconds s.sc.cycle
    let s := s.modFm fun f => { f with index := f.index.map fun x => if x.src = src then e' else x }
    report .confirmedRepeat (faultCode src) (val e'.occurrence) (queueEntry e' s)
  | none =>
    if s.fm.index.length < 32 then createEntry src none s
    else match s.fm.victim with
      | some v => createEntry src (some v.src) (displaceEntry v.src src s)
      | none =>
        let first := !s.fm.full
        report .notStored (faultCode src) (val (if first then 1 else 0)) (s.modFm fun f => { f with full := true })

/-! ## Trackers (R148 to R150) -/

/-- A source becomes present with its tracker ABSENT (R149): a timed source is PENDING with its confirm timer started,
an immediate one CONFIRMED. -/
def startTracker (src : FaultSource) (s : State) : State :=
  match confirmTime src with
  | some ms => setTracker src { state := .pending, timer := some ms } s
  | none => confirmFault src (setTracker src { state := .confirmed, timer := none } s)

/-- An owner hands a presence (R148): one that repeats the presence held changes nothing. -/
def setPresence (src : FaultSource) (p : Bool) (s : State) : State :=
  if s.fm.present src = p then s
  else
    let s := s.modFm fun f => { f with presence := vset f.presence (sourceIndex src) p }
    if p then
      if (s.fm.tracker src).state = .absent then startTracker src s else s
    else setTracker src .rest s

/-- The confirm timer of a PENDING tracker expires (R149). -/
def confirmExpired (src : FaultSource) (s : State) : State :=
  confirmFault src (setTracker src { state := .confirmed, timer := none } s)

/-- An event source fires (R150): ABSENT to CONFIRMED, the confirmation, and back to ABSENT at once. -/
def fireSource (src : FaultSource) (s : State) : State :=
  setTracker src .rest (confirmExpired src s)

/-! ## Completions of records (R156, R161) -/

/-- A FAULT_ENTRY record has been programmed (R156). -/
def entryProgrammed (e : FaultEntry) (s : State) : State :=
  if e.displaces.isSome then
    s.modFm fun f => { f with index := f.index.map fun x =>
      if x.src = e.src then { x with dispPending := false } else x }
  else s

/-- The JC hands the completion of a record's program to the FM, which queued it (R168, R156, R161). -/
def recordProgrammed (r : Record) (s : State) : State :=
  match r.content with
  | .faultEntry e => entryProgrammed e s
  | .clearMark => report .clearDone 0 none (s.modFm fun f => { f with clearPending := false })
  | _ => s

/-! ## RUN entry, clear, rebuild (R159, R160, R164) -/

/-- An entry is 40 or more cycles behind (R159). -/
def FaultEntry.aged (e : FaultEntry) (cycle : Nat) : Bool := decide (40 ≤ cycle - e.lastCycle)

/-- Aging at RUN entry (R159 step 1). Several AGED_OUT reports stand in the order of the index, which R159 does not say:
DESIGN CHOICE (log 44). -/
def ageEntries (s : State) : State :=
  let old := s.fm.index.filter fun e => e.aged s.sc.cycle
  let s' := s.modFm fun f => { f with index := f.index.filter fun e => !e.aged s.sc.cycle }
  old.foldl (fun t e => report .agedOut (faultCode e.src) (val e.lastCycle) t) s'

/-- Every tracker ABSENT with its timer stopped. -/
def resetTrackers (s : State) : State :=
  s.modFm fun f => { f with trackers := Vector.replicate 147 .rest }

/-- Trackers and presence view at RUN entry (R159 steps 2 and 3): the supply sources follow the supply state held. -/
def faultsRunEntry (s : State) : State :=
  let s := resetTrackers (s.modFm fun f => { f with presence := Vector.replicate 147 false })
  setPresence (.system 2) (decide (s.ci.supply = .high)) (setPresence (.system 1) (decide (s.ci.supply = .low)) s)

/-- An accepted clear (R160): index and queued records swept, a CLEAR_MARK queued, trackers reset, and the presence view
taken again in ascending fault code (log 11). -/
def clearFaults (s : State) : State :=
  let s := unqueueFaults (s.modFm fun f => { f with index := [] })
  let s := queueRecord .clearMark s
  let s := resetTrackers (s.modFm fun f => { f with clearPending := true, full := false })
  allSources.foldl (fun t src => if t.fm.present src then startTracker src t else t) s

/-- The weakest entries are left out until at most 32 remain (R164). -/
def trimIndex : Nat → List FaultEntry → List FaultEntry
  | 0, es => es
  | fuel + 1, es =>
    if es.length ≤ 32 then es
    else match weakest es with
      | some w => trimIndex fuel (es.filter fun e => decide (e.src ≠ w.src))
      | none => es

/-- The FM takes the entries handed at rebuild completion (R164). -/
def takeEntries (es : List FaultEntry) (s : State) : State :=
  let es := (es.map fun e => { e with dispPending := false }).foldl (fun acc e => insertEntry e acc) []
  s.modFm fun f => { f with index := trimIndex es.length es }

end Sys2Proof.Machine
end

