-- ==== Sys2Proof/Machine/Gauge.lean ====
section
/-! DEFINITION. The Gauge Engine's pointers (chapter 5): the update by pointer state, low supply, parking, STOP and the
end of tests; and the arithmetic of curve, dial map, damping and slew. -/

namespace Sys2Proof.Machine

/-! ## Curve and dial map (R75, R76) -/

/-- A quotient rounded to the nearest whole number, an exact half away from zero (R75); `d` is positive. -/
def roundHalfAway (n d : Int) : Int :=
  if 0 ≤ n then (2 * n + d) / (2 * d) else -((2 * -n + d) / (2 * d))

/-- The value between two points of a curve (R75). -/
def CurvePoint.between (a b : CurvePoint) (x : Int) : Int :=
  a.y + roundHalfAway ((x - a.x) * (b.y - a.y)) (b.x - a.x)

/-- A curve from its point `a` on, for an x not below that point. -/
def curveFrom (x : Int) : CurvePoint → List CurvePoint → Int × RangeInd
  | a, [] => (a.y, if a.x < x then .above else .none)
  | a, b :: rest => if x < b.x then (a.between b x, .none) else curveFrom x b rest

/-- The display value and range indication of an input (R75). -/
def curveValue (curve : List CurvePoint) (x : Int) : Int × RangeInd :=
  match curve with
  | [] => if 32767 < x then (32767, .above) else (x, .none)
  | a :: rest => if x < a.x then (a.y, .below) else curveFrom x a rest

/-- The dial map (R76). -/
def GaugeRec.dial (r : GaugeRec) (y : Int) : Nat :=
  if y ≤ r.vMin then 0
  else if r.vMax ≤ y then r.span
  else (((y - r.vMin) * r.span + (r.vMax - r.vMin) / 2) / (r.vMax - r.vMin)).toNat

/-- A display value lies strictly outside the dial range (R76). -/
def GaugeRec.outside (r : GaugeRec) (y : Int) : Bool := decide (y < r.vMin) || decide (r.vMax < y)

/-! ## Damping and slew (R78, R79) -/

/-- The move of the filter accumulator toward a target, with the minimum move of 1 (R78). -/
def dampStep (k : Nat) (d : Int) : Int :=
  let s := d.tdiv (2 ^ k)
  if s = 0 then d.sign else s

/-- The filter accumulator after one update (R78). -/
def dampAcc (k acc target : Nat) : Nat := (acc + dampStep k (target * 256 - acc : Int)).toNat

/-- The filtered position of an accumulator (R78). -/
def filteredOf (acc : Nat) : Nat := (acc + 128) / 256

/-- A position moved toward a goal by the smaller of the distance and a limit (R79). -/
def slewTo (p goal limit : Nat) : Nat := if p < goal then min goal (p + limit) else max goal (p - limit)

/-! ## Pointer states (R80) -/

/-- A gauge takes a pointer state and reports it (R80). -/
def setPointer (g : Fin 8) (st : PointerState) (s : State) : State :=
  report .pointerState g.val (val st.code) (s.modGauge g fun x => { x with pointer := st })

/-- The commanded position moves and the steps of the update are sent (R77). -/
def Gauge.moveTo (x : Gauge) (p : Nat) : Gauge := { x with pos := p, steps := (p : Int) - x.pos }

/-- The values a homing run starts from (R82). -/
def Gauge.homingStart (x : Gauge) (r : GaugeRec) : Gauge :=
  { x with pos := r.span, homingPhase := .countdown, stopPulses := r.span / 8, homed := true }

/-- One step of the homing run (R82). A gauge in HOMING has a phase; without one nothing moves (log 25). -/
def homingUpdate (g : Fin 8) (r : GaugeRec) (s : State) : State :=
  let x := s.ge[g]
  match x.homingPhase with
  | .countdown =>
    let x := x.moveTo (x.pos - 16)
    s.modGauge g fun _ => if x.pos = 0 then { x with homingPhase := .stopPulses } else x
  | .stopPulses =>
    let n := min 16 x.stopPulses
    let s := s.modGauge g fun x => { x with steps := -n, stopPulses := x.stopPulses - n }
    if x.stopPulses ≤ 16 then
      setPointer g (if r.sweep then .sweep else .tracking)
        (s.modGauge g fun x => { x with acc := 0, filtered := 0, sweepPhase := .up })
    else s
  | .none => s

/-- One step of the sweep (R83). A gauge in SWEEP has a phase; without one nothing moves (log 25). -/
def sweepUpdate (g : Fin 8) (r : GaugeRec) (s : State) : State :=
  let x := s.ge[g]
  match x.sweepPhase with
  | .up =>
    let x := x.moveTo (min r.span (x.pos + 16))
    s.modGauge g fun _ => if x.pos = r.span then { x with sweepPhase := .down } else x
  | .down =>
    let x := x.moveTo (x.pos - 16)
    let s := s.modGauge g fun _ => x
    if x.pos = 0 then setPointer g .tracking s else s
  | .none => s

/-- Damping, then slew toward F (R78, R79). -/
def Gauge.track (x : Gauge) (r : GaugeRec) : Gauge :=
  let acc := dampAcc r.k x.acc x.target
  { x with acc, filtered := filteredOf acc }.moveTo (slewTo x.pos (filteredOf acc) r.slew)

/-- Slew toward the test position, with TEST_REACHED where it is first reached (R88). -/
def testUpdate (g : Fin 8) (r : GaugeRec) (s : State) : State :=
  match s.ge[g].testPos with
  | some t =>
    let s := s.modGauge g fun x => x.moveTo (slewTo x.pos t r.slew)
    if s.ge[g].pos = t ∧ s.ge[g].testDue then
      report .testReached g.val (val t) (s.modGauge g fun x => { x with testDue := false })
    else s
  | none => s

/-- A gauge becomes UNPOWERED where it stands (R86, R87): its timer stops and no resume state or test remains. -/
def unpower (g : Fin 8) (s : State) : State :=
  setPointer g .unpowered (s.modGauge g fun x =>
    { x with resume := none, updateMs := 0, testPos := none, testDue := false })

/-- One step of parking (R86). -/
def parkingUpdate (g : Fin 8) (s : State) : State :=
  if s.ge[g].pos = 0 then unpower g (s.modGauge g fun x => { x with steps := 0 })
  else s.modGauge g fun x => x.moveTo (x.pos - 16)

/-- One update of a driven gauge by its pointer state (R77). -/
def pointerUpdate (g : Fin 8) (r : GaugeRec) (s : State) : State :=
  match s.ge[g].pointer with
  | .homing => homingUpdate g r s
  | .sweep => sweepUpdate g r s
  | .tracking => s.modGauge g (·.track r)
  | .test => testUpdate g r s
  | .parking => parkingUpdate g s
  | .unpowered | .hold => s

/-! ## RUN entry (R81) -/

/-- What every configured gauge takes at RUN entry before any report: count, flag, display value, range and target. -/
def Gauge.runEntry (x : Gauge) : Gauge :=
  match x.record with
  | some r =>
    { x with restarts := 0, homed := false, limited := false, display := none, range := .none, target := r.rest,
             resume := none, testPos := none, testDue := false }
  | none => x

/-- A configured gauge enters HOMING, or HOLD with resume state HOMING where the supply is LOW (R81). -/
def gaugeRunEntry (g : Fin 8) (s : State) : State :=
  match s.ge[g].record with
  | some r =>
    if s.ci.supply = .low then setPointer g .hold (s.modGauge g fun x => { x with resume := some .homing })
    else setPointer g .homing (s.modGauge g fun x => { x.homingStart r with updateMs := 0 })
  | none => s

/-! ## Low supply (R84, R85) -/

/-- Supply LOW: a driven gauge enters HOLD with the state it leaves as its resume state (R84). -/
def holdGauge (g : Fin 8) (s : State) : State :=
  if s.ge[g].pointer.driven then
    setPointer g .hold (s.modGauge g fun x => { x with resume := some x.pointer, updateMs := 0 })
  else s

/-- The supply leaves LOW: a gauge in HOLD enters its resume state; a homing that starts again is counted, reported
before the pointer state (log 14), and handed to the FM at the third (R85), whose report follows HOMING_RESTART (log 46). -/
def resumeGauge (g : Fin 8) (s : State) : State :=
  match s.ge[g].pointer, s.ge[g].resume with
  | .hold, some .homing =>
    match s.ge[g].record with
    | some r =>
      let again := s.ge[g].homed
      let count := min 255 (s.ge[g].restarts + 1)
      let s := if again then
          report .homingRestart g.val (val count) (s.modGauge g fun x => { x with restarts := count })
        else s
      let s := s.modGauge g fun x => { x.homingStart r with resume := none, updateMs := 0 }
      inFreeOrder [(true, setPointer g .homing), (again && decide (3 ≤ count), setPresence (.gauge g) true)] s
    | none => s
  | .hold, some st => setPointer g st (s.modGauge g fun x => { x with resume := none, updateMs := 0 })
  | _, _ => s

/-! ## SHUTDOWN, STOP and the end of tests (R86, R87, R89) -/

/-- SHUTDOWN: a driven gauge enters PARKING, one in HOLD takes PARKING as its resume state (R86). -/
def parkGauge (g : Fin 8) (s : State) : State :=
  match s.ge[g].pointer with
  | .hold => s.modGauge g fun x => { x with resume := some .parking }
  | .unpowered => s
  | _ => setPointer g .parking s

/-- STOP: every powered gauge becomes UNPOWERED where it stands (R87). -/
def stopGauge (g : Fin 8) (s : State) : State :=
  if s.ge[g].pointer = .unpowered then s else unpower g s

/-- A gauge's filter starts from where the pointer stands, and no test remains (R89, log 34). -/
def Gauge.leaveTest (x : Gauge) : Gauge :=
  { x with acc := x.pos * 256, filtered := filteredOf (x.pos * 256), testPos := none, testDue := false }

/-- The end of tests at one gauge (R89). -/
def endGaugeTest (g : Fin 8) (s : State) : State :=
  if s.ge[g].pointer = .test then setPointer g .tracking (s.modGauge g (·.leaveTest))
  else if s.ge[g].testing then s.modGauge g fun x => { x.leaveTest with resume := some .tracking }
  else s

end Sys2Proof.Machine
end

