-- ==== Sys2Proof/Machine/Service.lean ====
section
/-! DEFINITION. The service session of the State Controller (chapter 11): the end of tests and the end of the session. -/

namespace Sys2Proof.Machine

/-- The blocks end the tests in force (R184): the GE first, then the AO; where the session ends with STOP the gauges
are left to R87. -/
def endTestsAtBlocks (cause : EndCause) (s : State) : State :=
  alertsEndTests (if cause = .stop then s else forEach endGaugeTest s)

/-- The end of tests (R184): TEST_ENDED with the cause, then the blocks' own changes (log 15); nothing where no test is
in force. -/
def endTests (cause : EndCause) (s : State) : State :=
  if s.testsInForce then endTestsAtBlocks cause (report .testEnded 0 (val cause.code) s) else s

/-- The end of the session where the flag is on (R182): tests end, the flag is cleared, SERVICE_ENDED is placed. -/
def endSession (cause : EndCause) (s : State) : State :=
  if s.sc.service then
    report .serviceEnded 0 (val cause.code) ((endTests cause s).modSc fun c => { c with service := false })
  else s

/-- A STOP warning has entered ACTIVE (R185): with the flag on, tests end. -/
def stopActivation (s : State) : State := if s.sc.service then endTests .stopWarning s else s

end Sys2Proof.Machine
end

