-- ==== Sys2Proof/Machine/Warning.lean ====
section
/-! DEFINITION. The Warning Manager (chapter 6): the active warning list, the changes of an instance, the evaluation at a
hand-over, acknowledgement, RUN entry and the end of RUN. -/

namespace Sys2Proof.Machine

/-! ## The list (R103) -/

/-- The priority of a warning's definition; NOTICE for an unconfigured one, which no list holds. -/
def State.warnPriority (s : State) (w : Fin 64) : Priority := ((s.wm.defs[w]).map (·.priority)).getD .notice

/-- A warning takes its place by a fresh activation: after every entry of higher priority, before its own. -/
def insertWarning (prio : Fin 64 → Priority) (w : Fin 64) : List (Fin 64) → List (Fin 64)
  | [] => [w]
  | x :: xs => if (prio w).code < (prio x).code then x :: insertWarning prio w xs else w :: x :: xs

/-- The list without a warning. -/
def dropWarning (w : Fin 64) (l : List (Fin 64)) : List (Fin 64) := l.filter fun x => decide (x ≠ w)

/-! ## Changes of an instance (R98 to R102) -/

/-- An instance takes a state and the change is reported with the definition's priority (R101). -/
def setWarnState (w : Fin 64) (st : WarnState) (s : State) : State :=
  report .warningState w.val (val (st.code + 256 * (s.warnPriority w).code))
    (s.modInst w fun i => { i with state := st })

/-- The definition has the fault link set. -/
def State.faultLinked (s : State) (w : Fin 64) : Bool := ((s.wm.defs[w]).map (·.faultLink)).getD false

/-- An instance enters ACTIVE with a fresh activation sequence and takes its place in the list (R100, R103). -/
def activate (w : Fin 64) (s : State) : State :=
  s.modWm fun m =>
    { m with
      inst := vmod m.inst w fun i => { i with delayT := none, alertT := none, act := some m.counter }
      counter := m.counter + 1
      list := insertWarning s.warnPriority w (dropWarning w m.list) }

/-- An entry to ACTIVE (R100, R101): the report, the list to the AO, and then, in a free order, the presence to the FM
and the fact of a STOP activation to the SC. That the WARNING report comes before the FM's and the SC's reports on the same
change, and all of these before the next warning's, is DESIGN CHOICE (log 46). -/
def enterActive (w : Fin 64) (s : State) : State :=
  let acked := decide (s.wm.inst[w].state = .acked)
  let s := takeList (setWarnState w .active (activate w s))
  inFreeOrder
    [(s.faultLinked w && !acked, setPresence (.warning w) true),
     (decide (s.warnPriority w = .stop) && s.sc.service && s.testsInForce, stopActivation)] s

/-- A qualified INACTIVE instance starts (R98): ACTIVE at once with delay 0, else DELAYING. -/
def startWarning (w : Fin 64) (d : WarnDef) (s : State) : State :=
  if d.delay = 0 then enterActive w s
  else setWarnState w .delaying (s.modInst w fun i => { i with delayT := some (d.delay * 100) })

/-- The list after an instance has taken a state, handed to the AO: an INACTIVE instance is no longer in it (R99). -/
def handList (w : Fin 64) (st : WarnState) (s : State) : State :=
  takeList (if st = .inactive then s.modWm fun m => { m with list := dropWarning w m.list } else s)

/-- The absence of WARNING/w is handed where its presence held and the fault link is set (R109). -/
def handAbsence (w : Fin 64) (present : Bool) (s : State) : State :=
  if present && s.faultLinked w then setPresence (.warning w) false s else s

/-- A standing instance leaves ACTIVE and ACKED, or the list altogether (R99, R101, R109). -/
def leaveActive (w : Fin 64) (st : WarnState) (s : State) : State :=
  let present := decide (s.wm.inst[w].state = .active) || decide (s.wm.inst[w].state = .acked)
  handAbsence w present
    (handList w st (setWarnState w st (s.modInst w fun i => { i with delayT := none, alertT := none })))

/-- What an instance does where its qualification is as it now stands (R98, R99). -/
def actOn (w : Fin 64) (d : WarnDef) (q : Bool) (s : State) : State :=
  match s.wm.inst[w].state, q with
  | .inactive, true => startWarning w d s
  | .delaying, false => setWarnState w .inactive (s.modInst w fun i => { i with delayT := none })
  | .active, false => leaveActive w (if d.latching then .retained else .inactive) s
  | .acked, false => leaveActive w .inactive s
  | .retained, true => enterActive w s
  | _, _ => s

/-! ## Evaluation (R97) -/

/-- The condition value of every definition that reads the changed input, brought up to date. -/
def updateConds (reads : Condition → Bool) (v : View) (s : State) : State :=
  s.modWm fun m =>
    { m with inst := tab fun w =>
        match m.defs[w] with
        | some d => if reads d.cond then { m.inst[w] with cond := d.cond.value v m.inst[w].cond } else m.inst[w]
        | none => m.inst[w] }

/-- One definition asked whether its instance has become or ceased to be qualified (log 26). -/
def askWarning (reads : WarnDef → Bool) (v : View) (w : Fin 64) (s : State) : State :=
  match s.wm.defs[w] with
  | some d => if reads d then actOn w d (s.wm.inst[w].qualified d v) s else s
  | none => s

/-- A hand-over (R97): in RUN, the conditions that read the changed input first, then every definition whose condition
or gating reads it, in ascending warning number (R100), each with all that its change leads to before the next (log 46). -/
def evaluate (reads : Condition → Bool) (motion : Bool) (s : State) : State :=
  if s.sc.opState ≠ .run then s
  else match s.wm.view with
    | some v =>
      forEach (askWarning (fun d => reads d.cond || (motion && d.readsMotion)) v) (updateConds reads v s)
    | none => s

/-- The input view changed, in RUN (R97). -/
def changeView (f : View → View) (s : State) : State :=
  if s.sc.opState = .run then s.modWm fun m => { m with view := m.view.map f } else s

/-- The CI has changed channels: the view takes their effective status, value and reading. -/
def viewChannels (chs : List (Fin 40)) (s : State) : State :=
  changeView (fun v => { v with chan := tab fun ch => if ch ∈ chs then s.ci.eff ch else v.chan[ch] }) s

/-- The WM evaluates the definitions that read the changed channels. -/
def evaluateChannels (chs : List (Fin 40)) (s : State) : State :=
  evaluate (fun c => chs.any c.readsChannel) false s

/-- The GE hands a changed display value (R74). -/
def handDisplay (g : Fin 8) (s : State) : State :=
  evaluate (·.readsGauge g) false (changeView (fun v => { v with display := vset v.display g s.ge[g].display }) s)

/-- The DM hands the changed conditions of a leaf (R136). -/
def handDoorCond (l : Fin 8) (c : DoorCond) (s : State) : State :=
  evaluate (·.readsLeaf l) false (changeView (fun v => { v with door := vset v.door l c }) s)

/-- The CI hands the supply state (R61). -/
def handSupplyToWm (s : State) : State :=
  evaluate Condition.readsSupply false (changeView (fun v => { v with supply := s.ci.supply }) s)

/-- The CI hands the motion state (R67). -/
def handMotionToWm (s : State) : State :=
  evaluate (fun c => decide (c = .motionUnknown)) true (changeView (fun v => { v with motion := s.ci.motion }) s)

/-! ## Acknowledgement (R105, R106) -/

/-- The re-alert time an acknowledgement starts, in ms (R102). -/
def WarnDef.reAlertTime (d : WarnDef) : Option Nat :=
  if d.priority = .stop ∧ d.reAlert ≠ 0 then some (d.reAlert * 1000) else none

/-- ACTIVE to ACKED, with the re-alert timer where R102 starts it. -/
def acknowledgeActive (w : Fin 64) (d : WarnDef) (s : State) : State :=
  takeList (setWarnState w .acked (s.modInst w fun i => { i with alertT := d.reAlertTime }))

/-- An acknowledgement of an instance and its outcome (R106). -/
def acknowledge (w : Fin 64) (d : WarnDef) (s : State) : State × ReplyOutcome :=
  match s.wm.inst[w].state with
  | .active => if d.ackable then (acknowledgeActive w d s, .acknowledged) else (s, .notPending)
  | .retained => (leaveActive w .inactive s, .acknowledged)
  | .acked =>
    match s.wm.inst[w].alertT with
    | some _ => (s.modInst w fun i => { i with alertT := d.reAlertTime }, .renewed)
    | none => (s, .notPending)
  | .delaying | .inactive => (s, .notPending)

/-- An entry is a candidate (R105): ACTIVE or RETAINED, and acknowledgeable. -/
def State.isCandidate (s : State) (w : Fin 64) : Bool :=
  (decide (s.wm.inst[w].state = .active) || decide (s.wm.inst[w].state = .retained)) &&
    ((s.wm.defs[w]).map (·.ackable)).getD false

/-! ## RUN entry, SHUTDOWN and STOP (R110, R111) -/

/-- The view at RUN entry (R110). R110 gives the channels their effective status INIT alone: that the view holds no value and no
reading of them, where R70 keeps both in the CI, is DESIGN CHOICE (log 49). -/
def View.runEntry (supply : SupplyState) : View :=
  { chan := Vector.replicate 40 { status := .init, value := none, reading := none },
    display := Vector.replicate 8 none,
    door := Vector.replicate 8 { notSecure := true, released := false, obstructed := false, fault := false },
    supply, motion := .standstill }

/-- Every instance at rest, the list empty, the floor 0 and the view of RUN entry (R110). -/
def resetWarnings (s : State) : State :=
  s.modWm fun m =>
    { m with inst := Vector.replicate 64 .rest, list := [], floor := .notice, view := some (.runEntry s.ci.supply) }

/-- Every definition evaluated against the view of RUN entry (R110). -/
def warningsRunEntry (s : State) : State := evaluate (fun _ => true) true s

/-- The absence of WARNING/w is handed for a fault-linked instance that was ACTIVE or ACKED (R109). -/
def absentWarning (was : Vector WarnInst 64) (w : Fin 64) (s : State) : State :=
  if s.faultLinked w && (decide (was[w].state = .active) || decide (was[w].state = .acked)) then
    setPresence (.warning w) false s
  else s

/-- SHUTDOWN and STOP in RUN (R111): every instance INACTIVE, the list empty, the absences handed to the FM and the
empty list to the AO. -/
def warningsLeaveRun (s : State) : State :=
  let was := s.wm.inst
  let s := s.modWm fun m =>
    { m with inst := vmap (fun i : WarnInst => { i with state := .inactive, delayT := none, alertT := none }) m.inst,
             list := [] }
  alertsLeaveRun (forEach (absentWarning was) s)

end Sys2Proof.Machine
end

