-- ==== Sys2Proof/Machine/Dial.lean ====
section
/-! DEFINITION. The Gauge Engine's derivation of display value, range indication and target (R74 to R76). -/

namespace Sys2Proof.Machine

/-- The gauge's range and target for a display value from the curve (R75, R76). -/
def Gauge.show (x : Gauge) (r : GaugeRec) (y : Int) (range : RangeInd) : Gauge :=
  { x with display := some y, range, target := r.dial y, limited := x.limited || r.outside y }

/-- The gauge with nothing valid to show (R74). -/
def Gauge.blank (x : Gauge) (r : GaugeRec) : Gauge := { x with display := none, range := .none, target := r.rest }

/-- The gauge after a derivation (R74). A VALID source without a value does not occur and shows INVALID (log 25). -/
def Gauge.derived (x : Gauge) (r : GaugeRec) (refFault : Bool) (v : ChanView) : Gauge :=
  if refFault then x.blank r
  else match v.status, v.value with
    | .held, _ => x
    | .valid, some n =>
      let (y, range) := curveValue x.curve n
      x.show r y range
    | _, _ => x.blank r

/-- A derivation at a configured gauge, in RUN and SHUTDOWN (R74): the LIMITED report where the flag is newly set (R76),
then the changed display value to the WM. That LIMITED comes before the WM's reports, which no rule says, is DESIGN CHOICE
(log 42). -/
def deriveGauge (g : Fin 8) (s : State) : State :=
  match s.ge[g].record with
  | some r =>
    if s.live then
      let before := s.ge[g]
      let after := before.derived r s.ci.refFault (s.ci.eff r.source)
      let s := s.modGauge g fun _ => after
      let s := if after.limited && !before.limited then
          report .gaugeLimited g.val (valInt (after.display.getD 0)) s
        else s
      if after.display ≠ before.display then handDisplay g s else s
    else s
  | none => s

/-- The source of a gauge is among some channels. -/
def State.gaugeReads (s : State) (chs : List (Fin 40)) (g : Fin 8) : Bool :=
  match s.ge[g].record with
  | some r => decide (r.source ∈ chs)
  | none => false

/-- The gauges whose source is among the changed channels derive again (R74). -/
def deriveGauges (chs : List (Fin 40)) (s : State) : State :=
  forEach (fun g t => if t.gaugeReads chs g then deriveGauge g t else t) s

end Sys2Proof.Machine
end

