-- ==== Sys2Proof/Machine/Door.lean ====
section
/-! DEFINITION. The Door Monitor (chapter 8): input readings, the evaluation of a leaf, timers, counting, doorways,
DOORS_CLEAR, and the parked watch. -/

namespace Sys2Proof.Machine

/-! ## Readings (R127) -/

/-- A reading under a polarity: INVERTED exchanges ACTIVE and INACTIVE. -/
def Reading.polar (inverted : Bool) : Reading → Reading
  | .active => if inverted then .inactive else .active
  | .inactive => if inverted then .active else .inactive
  | .unknown => .unknown

/-- The reading of a VALID channel under polarity NORMAL: the switch reading of a wired channel, the value of a network
channel. A VALID switch without a reading does not occur and reads UNKNOWN (log 25). -/
def ChanView.reads (v : ChanView) (wired : Bool) : Reading :=
  if wired then
    match v.reading with
    | some .active => .active
    | some .inactive => .inactive
    | none => .unknown
  else if v.value.getD 0 ≠ 0 then .active else .inactive

/-- The reading of an input from its channel and the reading it had (R127). -/
def LeafInput.reading (i : LeafInput) (v : ChanView) (old : Reading) : Reading :=
  match v.status with
  | .valid => (v.reads (asWired i.ch).isSome).polar i.inverted
  | .held => old
  | _ => .unknown

/-- The readings of a leaf after a hand-over of some channels. -/
def State.leafReadings (s : State) (l : Leaf) (chs : List (Fin 40)) : Vector Reading 5 :=
  tab fun slot =>
    match l.input slot with
    | some i => if i.ch ∈ chs then i.reading (s.ci.eff i.ch) l.readings[slot] else l.readings[slot]
    | none => l.readings[slot]

/-- A configured leaf names one of some channels. -/
def Leaf.names (l : Leaf) (chs : List (Fin 40)) : Bool :=
  match l.cfg with
  | some c => (List.finRange 5).any fun slot =>
      match c.inputs[slot] with
      | some i => decide (i.ch ∈ chs)
      | none => false
  | none => false

/-! ## States from readings (R128 to R130) -/

/-- A slot whose UNKNOWN reading makes the leaf UNKNOWN: CLOSED, LOCKED with a lock input, RELEASE where mapped. -/
def Leaf.critical (l : Leaf) (slot : Fin 5) : Bool :=
  decide (slot = slotClosed) || (decide (slot = slotLocked) && l.hasLock) ||
    (decide (slot = slotRelease) && l.hasRelease)

/-- Line 1 of R128: a critical reading is UNKNOWN. -/
def Leaf.blind (l : Leaf) : Bool :=
  (List.finRange 5).any fun slot => l.critical slot && decide (l.readings[slot] = .unknown)

/-- Line 2 of R128: the RELEASE reading is ACTIVE. -/
def Leaf.pulled (l : Leaf) : Bool := l.hasRelease && decide (l.readings[slotRelease] = .active)

/-- "Per inputs" (R130): LOCKED if the leaf has a lock input reading ACTIVE, else CLOSED. -/
def Leaf.perInputs (l : Leaf) : LeafState :=
  if l.hasLock && decide (l.readings[slotLocked] = .active) then .locked else .closed

/-- Re-derivation (R129). -/
def Leaf.rederived (l : Leaf) : LeafState :=
  if l.readings[slotClosed] = .active then l.perInputs else .opened

/-- The first line of the present state's table (R130) among the readings tested. -/
def Leaf.line (l : Leaf) (tested : Fin 5 → Bool) : Option LeafState :=
  let now (slot : Fin 5) (r : Reading) : Bool := tested slot && decide (l.readings[slot] = r)
  match l.state with
  | .locked =>
    if now slotClosed .inactive then some .opening
    else if now slotLocked .inactive && decide (l.readings[slotClosed] = .active) then some .closed
    else none
  | .closed =>
    if now slotClosed .inactive then some .opening
    else if l.hasLock && now slotLocked .active then some .locked
    else none
  | .opening =>
    if now slotClosed .active then some l.perInputs
    else if now slotEdge .active then some .obstructed
    else if now slotOpenEnd .active then some .opened
    else none
  | .opened =>
    if now slotClosed .active then some l.perInputs
    else if l.hasOpenEnd && now slotOpenEnd .inactive then some .closing
    else none
  | .closing =>
    if now slotClosed .active then some l.perInputs
    else if now slotEdge .active then some .obstructed
    else if now slotOpenEnd .active then some .opened
    else none
  | .obstructed =>
    if now slotClosed .active then some l.perInputs
    else if now slotEdge .inactive then some .opening
    else none
  | .released | .unknown => none

/-! ## Entering a state (R128, R131, R132) -/

/-- The timers of a leaf at the entry to a state (R131): a timer belongs to one state and starts at its entry. -/
def Leaf.timersFor (l : Leaf) (st : LeafState) : Leaf :=
  match l.cfg with
  | some c =>
    { l with
      travelT := if st = .opening ∧ !l.hasOpenEnd then some (c.travel * 100) else none
      lockT := if st = .closed ∧ l.hasLock then some (c.lockTo * 100) else none
      closingT := if st = .closing then some 0 else none }
  | none => l

/-- The cycle mark at the entry to a state (R132): set by a moving or released state, cleared by UNKNOWN, spent at
secure. -/
def Leaf.markFor (l : Leaf) (st : LeafState) : Bool :=
  match st with
  | .opening | .opened | .closing | .obstructed | .released => true
  | .unknown => false
  | .locked | .closed => l.cycleMark && !secureState l.hasLock st

/-- A leaf enters a state; outside RUN and SHUTDOWN no timer starts. -/
def Leaf.enter (l : Leaf) (live : Bool) (st : LeafState) : Leaf :=
  let timed := if live then l.timersFor st else { l with travelT := none, lockT := none, closingT := none }
  { timed with
    state := st
    cycleMark := l.markFor st
    lockFault := l.lockFault && decide (st ≠ .locked) }

/-- The statistics of a leaf after it enters a state (R132): a cycle at secure with the mark set, an obstruction. -/
def DoorStats.count (d : DoorStats) (l : Leaf) (st : LeafState) : DoorStats :=
  let d := if l.cycleMark && secureState l.hasLock st then { d with cycles := min 4294967295 (d.cycles + 1) } else d
  if st = .obstructed then { d with obstructions := min 65535 (d.obstructions + 1) } else d

/-- A closing time t takes part in the mean (R133). -/
def meanAfter (m : Option Nat) (t : Nat) : Nat :=
  match m with
  | some m => (m + ((t : Int) - m).tdiv 8).toNat
  | none => t

/-! ## One evaluation -/

/-- What one evaluation does to a leaf: the leaf and its statistics, the states entered in order, and the closing time
where one was measured. -/
structure LeafRun where
  leaf    : Leaf
  stats   : DoorStats
  entered : List LeafState
  closing : Option Nat
  deriving DecidableEq, Repr

/-- The leaf enters a state in RUN or SHUTDOWN. -/
def LeafRun.enter (r : LeafRun) (st : LeafState) : LeafRun :=
  { r with leaf := r.leaf.enter true st, stats := r.stats.count r.leaf st, entered := r.entered ++ [st] }

/-- A closing time is measured (R133): mean, slow closings and slow flag. -/
def LeafRun.measure (r : LeafRun) (t : Nat) : LeafRun :=
  let slow := match r.leaf.cfg with
    | some c => decide (10 * c.closing < t)
    | none => false
  { r with
    leaf := { r.leaf with slow }
    stats := { r.stats with
      mean := some (meanAfter r.stats.mean t)
      slow := if slow then min 65535 (r.stats.slow + 1) else r.stats.slow }
    closing := some t }

/-- A movement transition is taken; one that leaves CLOSING by the closed switch is measured. -/
def LeafRun.move (r : LeafRun) (st : LeafState) : LeafRun :=
  let t := min 65535 (r.leaf.closingT.getD 0 / 10)
  let closed := decide (r.leaf.state = .closing) && (decide (st = .closed) || decide (st = .locked))
  if closed then (r.enter st).measure t else r.enter st

/-- The entry test, repeated for each state so entered (R130); it settles after at most two further states. -/
def LeafRun.settle : Nat → LeafRun → LeafRun
  | 0, r => r
  | fuel + 1, r =>
    match r.leaf.line (fun _ => true) with
    | some st => settle fuel (r.move st)
    | none => r

/-- A line of the table is taken and the entry test made. -/
def LeafRun.take (r : LeafRun) (st : LeafState) : LeafRun := (r.move st).settle 3

/-- The evaluation of R128 for the readings that changed. -/
def LeafRun.evaluate (r : LeafRun) (changed : Fin 5 → Bool) : LeafRun :=
  let l := r.leaf
  if l.blind then (if l.state = .unknown then r else r.enter .unknown)
  else if l.pulled then (if l.state = .released then r else r.enter .released)
  else if l.state = .unknown ∨ l.state = .released then r.enter l.rederived
  else match l.line changed with
    | some st => r.take st
    | none => r

/-! ## Doorways and DOORS_CLEAR (R134, R135) -/

/-- A doorway is derived again; a change other than to or from EMPTY is reported. -/
def deriveDoorway (w : Fin 4) (s : State) : State :=
  let before := s.dm.doorway[w]
  let after := s.dm.worst w
  let s := s.modDm fun d => { d with doorway := vset d.doorway w after }
  if before ≠ after ∧ before.isSome ∧ after.isSome then
    report .doorwayState (8 + w.val) (val (doorwayCode after)) s
  else s

/-- DOORS_CLEAR takes a level; a change is reported. -/
def setDoorsClear (on : Bool) (s : State) : State :=
  if s.dm.doorsClear = on then s
  else report .doorsClear 12 (val (if on then 1 else 0)) (s.modDm fun d => { d with doorsClear := on })

/-- DOORS_CLEAR is derived again (R135): asserted in RUN while every configured leaf is secure. -/
def deriveDoorsClear (s : State) : State := setDoorsClear (decide s.inRun && s.dm.allSecure) s

/-! ## What an evaluation hands on (R136 to R138, R141) -/

/-- DOOR/INPUT is present (R137): the leaf is UNKNOWN, and a critical reading is UNKNOWN because its channel's effective
status is FAULT or LOST. -/
def State.inputFaultNow (s : State) (l : Leaf) : Bool :=
  decide (l.state = .unknown) && (List.finRange 5).any fun slot =>
    l.critical slot && decide (l.readings[slot] = .unknown) &&
      match l.input slot with
      | some i => decide ((s.ci.eff i.ch).status = .fault) || decide ((s.ci.eff i.ch).status = .lost)
      | none => false

/-- A DOOR_STATS record is queued with the statistics as they stand (R141). -/
def queueDoorStats (s : State) : State := queueRecord (.doorStats s.dm.stats) s

/-- The leaf's changed conditions go to the WM, in RUN (R136). -/
def handConds (i : Fin 8) (s : State) : State :=
  let c := s.dm.leaves[i].conds
  handDoorCond i c (s.modDm fun d => { d with conds := vset d.conds i (some c) })

/-- The doorway of a leaf. -/
def Leaf.doorway (l : Leaf) : Option (Fin 4) := l.cfg.map (·.doorway)

/-- The doorway a leaf names is derived again. -/
def deriveDoorwayOf (l : Leaf) (s : State) : State :=
  match l.doorway with
  | some w => deriveDoorway w s
  | none => s

/-- One evaluation's results (R138): LEAF_STATE reports, CLOSING_TIME, DOORWAY_STATE, DOORS_CLEAR; then, in a free
order, conditions to the WM, sources to the FM and statistics to the JC. That the DM's reports come before those of the
blocks handed to is DESIGN CHOICE (log 46). -/
def concludeLeaf (i : Fin 8) (r : LeafRun) (s : State) : State :=
  let before := s.dm.leaves[i]
  let statsBefore := s.dm.stats[i]
  let leaf := { r.leaf with inputFault := s.inputFaultNow r.leaf }
  let s := s.modDm fun d => { d with leaves := vset d.leaves i leaf, stats := vset d.stats i r.stats }
  let s := r.entered.foldl (fun t st => report .leafState i.val (val st.code) t) s
  let s := match r.closing with
    | some t => report .closingTime i.val (val t) s
    | none => s
  let s := if r.entered = [] then s else deriveDoorsClear (deriveDoorwayOf leaf s)
  let slow := r.closing.isSome && leaf.slow
  inFreeOrder
    [(decide s.inRun && decide (s.dm.conds[i] ≠ some leaf.conds), handConds i),
     (decide (before.lockFault ≠ leaf.lockFault), setPresence (.doorLock i) leaf.lockFault),
     (slow, fireSource (.doorSlow i)),
     (decide (before.inputFault ≠ leaf.inputFault), setPresence (.doorInput i) leaf.inputFault),
     (decide (s.sc.opState = .shutdown) && decide (r.stats ≠ statsBefore), queueDoorStats)] s

/-- A leaf with its statistics at the start of an evaluation. -/
def State.leafRun (s : State) (i : Fin 8) (l : Leaf) : LeafRun :=
  { leaf := l, stats := s.dm.stats[i], entered := [], closing := none }

/-- A hand-over of channels to a leaf in RUN or SHUTDOWN (R128): readings up to date, one evaluation. -/
def evaluateLeaf (chs : List (Fin 40)) (i : Fin 8) (s : State) : State :=
  let old := s.dm.leaves[i]
  let l := { old with readings := s.leafReadings old chs }
  concludeLeaf i ((s.leafRun i l).evaluate fun slot => decide (l.readings[slot] ≠ old.readings[slot])) s

/-- A hand-over of channels during a watch pass (R139): a parked-watch leaf records its readings (log 30). -/
def recordReadings (chs : List (Fin 40)) (i : Fin 8) (s : State) : State :=
  let old := s.dm.leaves[i]
  if ((old.cfg).map (·.watched)).getD false then
    let readings := s.leafReadings old chs
    let rose := decide (readings[slotRelease] = .active) && decide (old.readings[slotRelease] ≠ .active)
    s.modLeaf i fun l => { l with readings, releaseRose := l.releaseRose || rose }
  else s

/-- A hand-over of changed channels to the DM. -/
def doorsTake (chs : List (Fin 40)) (s : State) : State :=
  forEach (fun i t =>
    if t.dm.leaves[i].names chs then
      if t.live then evaluateLeaf chs i t
      else if t.sc.opState = .parked then recordReadings chs i t
      else t
    else t) s

/-! ## Timers (R131) -/

/-- The travel timer expires: line 4 of OPENING. -/
def travelExpired (i : Fin 8) (s : State) : State :=
  let l := { s.dm.leaves[i] with travelT := none }
  concludeLeaf i ((s.leafRun i l).take .opened) s

/-- The lock timer expires: line 3 of CLOSED. -/
def lockExpired (i : Fin 8) (s : State) : State :=
  let l := { s.dm.leaves[i] with lockT := none, lockFault := true }
  concludeLeaf i (s.leafRun i l) s

/-- Every running door timer stops (R131). -/
def stopDoorTimers (s : State) : State :=
  s.modDm fun d =>
    { d with leaves := vmap (fun l : Leaf => { l with travelT := none, lockT := none, closingT := none }) d.leaves }

/-! ## The parked watch (R139) -/

/-- The state a parked-watch leaf takes at the end of a watch pass. -/
def Leaf.parkedState (l : Leaf) : LeafState :=
  if l.blind then .unknown else if l.pulled then .released else l.rederived

/-- A leaf at the end of a watch pass: its state reported, its doorway derived, and DOOR/INPUT, DOOR/LOCK and
DOOR/PARKED handed to the FM in a free order. PARKED fires where the leaf passes out of LOCKED and CLOSED (log 20) or
its RELEASE became ACTIVE. That the DM's reports come before the FM's is DESIGN CHOICE (log 46). -/
def parkedEvaluate (i : Fin 8) (s : State) : State :=
  let before := s.dm.leaves[i]
  if ((before.cfg).map (·.watched)).getD false then
    let st := before.parkedState
    let moved := decide (st ≠ before.state)
    let l := { (if moved then before.enter false st else before) with releaseRose := false }
    let leaf := { l with inputFault := s.inputFaultNow l }
    let s := s.modLeaf i fun _ => leaf
    let s := if moved then deriveDoorwayOf leaf (report .leafState i.val (val st.code) s) else s
    let left := (decide (before.state = .locked) || decide (before.state = .closed)) &&
      !(decide (st = .locked) || decide (st = .closed))
    inFreeOrder
      [(decide (before.lockFault ≠ leaf.lockFault), setPresence (.doorLock i) leaf.lockFault),
       (decide (before.inputFault ≠ leaf.inputFault), setPresence (.doorInput i) leaf.inputFault),
       (left || before.releaseRose, fireSource (.doorParked i))] s
  else s

/-! ## RUN entry, SHUTDOWN, STOP, PARKED (R139, R140, R142) -/

/-- Every configured leaf begins afresh and doorways with a leaf become UNKNOWN (R142). -/
def resetLeaves (s : State) : State :=
  s.modDm fun d =>
    let leaves := vmap (fun l : Leaf =>
      if l.cfg.isSome then { Leaf.fresh l.cfg with counted := l.counted } else l) d.leaves
    let e := { d with leaves }
    { e with
      doorway := tab e.worst
      conds := vmap (fun l : Leaf => if l.cfg.isSome then some l.conds else none) leaves }

/-- Entry to PARKED (R139). -/
def doorsPark (s : State) : State :=
  (stopDoorTimers s).modDm fun d =>
    { d with leaves := vmap (fun l : Leaf => { l with releaseRose := false }) d.leaves }

end Sys2Proof.Machine
end

