-- ==== Sys2Proof/Machine/Channel.lean ====
section
/-! DEFINITION. The Channel Interpreter (chapter 4): resistances, classes, statuses, reference and supply judgements,
switchover, network channels, motion, and the hand-over of changes to the blocks that read channels. -/

namespace Sys2Proof.Machine

/-! ## From count to class (R52 to R55) -/

/-- The resistance of a wired count against the reference count of its pass, before the clamp (R52). -/
def resistance (rRef nRef nx : Nat) (gate : Fin 4) : Nat :=
  (rRef * nRef * 2 ^ gate.val + nx * 4 / 2) / (nx * 4)

/-- The highest resistance (R52). -/
def maxResistance : Nat := 200000

/-- A count from which a resistance is computed (R51). -/
abbrev ResultRecord.measurable (r : ResultRecord) : Prop := r.saturated = false ∧ 4 ≤ r.count

/-- The resistance of a result, clamped, and whether it was clamped; none for a stall or a saturation (R52). -/
def ResultRecord.ohms (r : ResultRecord) (rRef nRef : Nat) : Option (Nat × Bool) :=
  if r.measurable then
    let x := resistance rRef nRef r.count r.gate
    some (min maxResistance x, decide (maxResistance < x))
  else none

/-- The reading class of a result (R53). -/
def ResultRecord.readingClass (r : ResultRecord) (thresholds : List Nat) (ohms : Nat) : ReadingClass :=
  if r.saturated then .saturated
  else if r.count < 4 then
    match r.level with
    | .low => .stallLow
    | .mid => .stallMid
    | .high => .stallHigh
  else .band (thresholds.filter fun t => decide (t ≤ ohms)).length

/-- The wiring fault class of a confirmed class (R55). -/
def WiredCfg.wiringOf (c : WiredCfg) : Option ReadingClass → WiringClass
  | some .saturated | some .stallLow => .shortGround
  | some .stallMid => .openLoop
  | some .stallHigh => .shortBattery
  | some (.band i) =>
    match c.meanings[i]? with
    | some .faultShort => .shortGround
    | some .faultOpen => .openLoop
    | _ => .none
  | none => .none

/-! ## One interpreted result (R54 to R57) -/

/-- Candidate and confirmed class after a reading class (R54). -/
def Wired.step (w : Wired) (c : ReadingClass) : Wired :=
  let n := if w.candidate = some c then min w.cfg.confirm (w.candCount + 1) else 1
  { w with
    candidate := some c
    candCount := n
    confirmed := if n = w.cfg.confirm then some c else w.confirmed }

/-- Wiring fault class and status from the confirmed class (R55, R56). -/
def Wired.judge (w : Wired) : Wired :=
  let wiring := w.cfg.wiringOf w.confirmed
  let status : Status :=
    if wiring ≠ .none then .fault
    else if w.status = .init ∧ w.confirmed = none then .init
    else .valid
  { w with wiring, status }

/-- The value of a SENDER: a resistance in a VALUE band while a VALUE band is confirmed (R57). -/
def Wired.takeValue (w : Wired) (c : ReadingClass) (ohms : Nat) : Wired :=
  if w.cfg.kind = .sender ∧ w.cfg.meaning c = some .value ∧ w.confirmed.bind w.cfg.meaning = some .value then
    { w with value := some ohms }
  else w

/-- The switch reading of a SWITCH (R57). -/
def Wired.takeReading (w : Wired) : Wired :=
  if w.cfg.kind = .switch then
    match w.confirmed.bind w.cfg.meaning with
    | some .active => { w with reading := some .active }
    | some .inactive => { w with reading := some .inactive }
    | _ => w
  else w

/-- A wired channel after an interpreted result (R51 steps 1 to 5). -/
def Wired.interpret (w : Wired) (r : ResultRecord) (rRef nRef : Nat) : Wired :=
  let x := r.ohms rRef nRef
  let ohms := (x.map (·.1)).getD 0
  let clamped := (x.map (·.2)).getD false
  let c := r.readingClass w.cfg.thresholds ohms
  let w := ((w.step c).judge.takeValue c ohms).takeReading
  { w with limited := w.limited || clamped }

/-! ## Hand-overs -/

/-- The channels whose effective status, value or reading differs between two moments. -/
def changedChannels (a b : Interp) : List (Fin 40) :=
  (List.finRange 40).filter fun ch => decide (a.eff ch ≠ b.eff ch)

/-- Presences are handed to the FM in the order given (R148). -/
def handPresences (ps : List (FaultSource × Bool)) (s : State) : State :=
  ps.foldl (fun t p => setPresence p.1 p.2 t) s

/-- Some presence of a list differs from the one the FM holds. -/
def State.presenceDiffers (s : State) (ps : List (FaultSource × Bool)) : Bool :=
  ps.any fun p => decide (s.fm.present p.1 ≠ p.2)

/-- Some configured warning reads one of the channels. -/
def State.warnReads (s : State) (chs : List (Fin 40)) : Bool :=
  (List.finRange 64).any fun w =>
    match s.wm.defs[w] with
    | some d => chs.any d.cond.readsChannel
    | none => false

/-- The CI hands the channel changes since `before` to the blocks that read them (R51): the WM's view is current first
(R97), then GE, DM, WM and FM act in a free order, with whatever else the event hands. `allGauges` is the declaration or
end of REFERENCE_FAULT, at which every gauge derives (R74). -/
def handChannels (before : Interp) (allGauges : Bool) (faults : List (FaultSource × Bool))
    (more : List (Bool × (State → State))) (s : State) : State :=
  let chs := changedChannels before s.ci
  inFreeOrder
    ([(allGauges, forEach deriveGauge),
      (!allGauges && (List.finRange 8).any (s.gaugeReads chs), deriveGauges chs),
      ((List.finRange 8).any fun l => s.dm.leaves[l].names chs, doorsTake chs),
      (s.warnReads chs && decide s.inRun, evaluateChannels chs),
      (s.presenceDiffers faults, handPresences faults)] ++ more)
    (viewChannels chs s)

/-! ## Reports of a channel -/

/-- A STATUS report of a channel (R56, R65): the status, and the wiring fault class in the high byte. -/
def reportStatus (ch : Nat) (st : Status) (wiring : WiringClass) : State → State :=
  report .status ch (val (st.code + 256 * wiring.code))

/-- The reports an interpreted result gives its own channel: LIMITED (R68), STATUS (R56), SWITCH (R57), before those of any
block the change is handed to (log 41). -/
def reportWired (ch : Fin 24) (a b : Wired) (s : State) : State :=
  let s := if b.limited && !a.limited then report .channelLimited ch.val none s else s
  let s := if a.status ≠ b.status ∨ a.wiring ≠ b.wiring then reportStatus ch.val b.status b.wiring s else s
  if a.reading ≠ b.reading then
    report .switch ch.val ((b.reading.map fun r => (BitVec.ofNat 16 r.code : Word16))) s
  else s

/-! ## Switchover (R62) -/

/-- A primary switches to its partner where its own status is FAULT and the partner's VALID. -/
def switchPrimary (p : Fin 24) (s : State) : State :=
  match s.ci.primaryPartner p with
  | some q =>
    if !s.ci.wired[p].switched ∧ s.ci.wired[p].status = .fault ∧ s.ci.wired[q].status = .valid then
      report .switched p.val (val q.val) (s.modWired p fun w => { w with switched := true })
    else s
  | none => s

/-- The primaries that a channel's own change may switch: itself, or the primary it is the partner of. -/
def switchAround (ch : Fin 24) (s : State) : State :=
  let s := switchPrimary ch s
  match s.ci.primaryOf ch with
  | some p => switchPrimary p s
  | none => s

/-! ## Wired results (R51) -/

/-- A wired result is interpreted (R51): the reference judgement is GOOD, the kind is not OFF and REFERENCE_FAULT is not
declared. -/
abbrev Interp.interprets (c : Interp) (ch : Fin 24) : Prop :=
  c.judgement = some .good ∧ c.wired[ch].cfg.kind ≠ .off ∧ c.refFault = false

/-- A wired result at the CI (R51). -/
def wiredResult (ch : Fin 24) (r : ResultRecord) (s : State) : State :=
  if s.ci.interprets ch then
    let before := s.ci
    let w := s.ci.wired[ch].interpret r s.ci.rRef (s.ci.passCount.getD 0)
    let s := reportWired ch before.wired[ch] w (s.modWired ch fun _ => w)
    handChannels before false [(.wiring ch, w.wiring.present)] [] (switchAround ch s)
  else s

/-! ## The reference (R58 to R60) -/

/-- The wired channels that a judgement of the reference changes (R58 to R60): in PARKED those of the watch set alone, since the
others keep their statuses there (R71). That they keep their classes with them is DEDUCED (log 47). -/
def State.judges (s : State) (ch : Fin 24) : Bool := decide (s.sc.opState ≠ .parked) || decide (ch ∈ s.sc.watchSet)

/-- Every non-OFF wired channel of `on` changed. -/
def Interp.mapWired (c : Interp) (on : Fin 24 → Bool) (f : Wired → Wired) : Interp :=
  { c with wired := tab fun ch => if c.wired[ch].cfg.kind = .off ∨ on ch = false then c.wired[ch] else f c.wired[ch] }

/-- A wired channel begins to be confirmed again (R60, R70). -/
def Wired.restart (w : Wired) : Wired :=
  { w with status := .init, candidate := none, candCount := 0, confirmed := none, wiring := .none }

/-- The presences of the 24 WIRING sources as the wired channels stand. -/
def Interp.wiringPresences (c : Interp) : List (FaultSource × Bool) :=
  (List.finRange 24).map fun ch => (.wiring ch, c.wired[ch].wiring.present)

/-- A GOOD judgement (R58, R60). The CI's own report comes before those of the blocks it hands the change to: DESIGN CHOICE
(log 41). -/
def referenceGood (count : Nat) (s : State) : State :=
  let before := s.ci
  if s.ci.refFault then
    let s := s.modCi fun c => { c.mapWired s.judges Wired.restart with refFault := false, failCount := 0 }
    handChannels before true (s.ci.wiringPresences ++ [(.system 0, false)]) []
      (report .referenceGood 0 (val count) s)
  else if s.ci.failCount ≠ 0 then
    report .referenceGood 0 (val count) (s.modCi fun c => { c with failCount := 0 })
  else s

/-- The third FAILED judgement in a row (R59). The CI's own report comes before those of the blocks it hands the change to:
DESIGN CHOICE (log 41). -/
def declareReferenceFault (count : Nat) (s : State) : State :=
  let before := s.ci
  let s := s.modCi fun c =>
    { c.mapWired s.judges fun w => { w with status := .fault, wiring := .undetermined } with
      refFault := true, failCount := 3 }
  handChannels before true (s.ci.wiringPresences ++ [(.system 0, true)]) []
    (report .referenceFault 0 (val count) s)

/-- A FAILED judgement that leaves the failure count at 1 or 2 (R58): VALID wired channels become HELD. -/
def referenceFailed (count : Nat) (s : State) : State :=
  let before := s.ci
  let s := if s.ci.failCount = 0 then report .referenceFailed 0 (val count) s else s
  let s := s.modCi fun c =>
    { c.mapWired s.judges fun w => if w.status = .valid then { w with status := .held } else w with
      failCount := c.failCount + 1 }
  handChannels before false [] [] s

/-- The reference window (R58). -/
abbrev Interp.inWindow (c : Interp) (count : Nat) : Prop := c.nRefMin ≤ count ∧ count ≤ c.nRefMax

/-- A REFERENCE result at the CI (R58). -/
def referenceResult (r : ResultRecord) (s : State) : State :=
  let good := decide (s.ci.inWindow r.count) && !r.saturated
  let s := s.modCi fun c =>
    { c with passCount := some r.count, judgement := some (if good then .good else .failed) }
  if good then referenceGood r.count s
  else if s.ci.failCount < 2 then referenceFailed r.count s
  else if s.ci.refFault then s
  else declareReferenceFault r.count s

/-! ## The supply (R61) -/

/-- The supply state after a judged supply (R61). -/
def SupplyState.after (st : SupplyState) (mv : Nat) : SupplyState :=
  match st with
  | .normal => if mv < 16000 then .low else if 32000 < mv then .high else .normal
  | .low => if 32000 < mv then .high else if 17000 ≤ mv then .normal else .low
  | .high => if mv < 16000 then .low else if mv ≤ 31000 then .normal else .high

/-- The GE takes a change of the supply state (R84, R85). -/
def gaugesTakeSupply (before : SupplyState) (s : State) : State :=
  if s.ci.supply = .low then forEach holdGauge s
  else if before = .low then forEach resumeGauge s
  else s

/-- A SUPPLY result at the CI (R61), its report before those of the blocks that take the new state (log 41). -/
def supplyResult (r : ResultRecord) (s : State) : State :=
  let mv := min 60000 (r.count * 4)
  let before := s.ci.supply
  let after := before.after mv
  let s := s.modCi fun c => { c with supplyMv := some mv, supply := after }
  if after = before then s
  else
    inFreeOrder
      [(decide (after = .low) || decide (before = .low), gaugesTakeSupply before),
       (decide s.inRun, handSupplyToWm),
       (true, handPresences [(.system 1, decide (after = .low)), (.system 2, decide (after = .high))])]
      (report .supply 0 (val mv) s)

/-- A result at the CI (R51). -/
def takeResult (r : ResultRecord) (s : State) : State :=
  match r.target with
  | .reference => referenceResult r s
  | .supply => supplyResult r s
  | .wired ch => wiredResult ch r s

/-! ## Motion (R67) -/

/-- Motion state and standstill timer after a change of the designated channel (R67). -/
def motionAfter (m : MotionState) (timer : Option Nat) (move stop : Nat) (v : ChanView) : MotionState × Option Nat :=
  match v.status with
  | .valid =>
    let x := v.value.getD 0
    if (move : Int) ≤ x then (.moving, none)
    else if (stop : Int) ≤ x then (if m = .standstill then (.standstill, timer) else (.moving, none))
    else if m = .standstill then (.standstill, timer)
    else (m, some (timer.getD 1000))
  | .held => (m, none)
  | .lost => (.unknown, none)
  | .init => (.standstill, none)
  | .off | .fault => (m, timer)

/-- The motion state is evaluated where the designated channel is among the changed ones. -/
def Interp.motionStep (c : Interp) (before : Interp) : Interp :=
  match c.motionChannel with
  | some ch =>
    if before.eff ch = c.eff ch then c
    else
      let (m, t) := motionAfter c.motion c.standstillT c.moveThr c.stopThr (c.eff ch)
      { c with motion := m, standstillT := t }
  | none => c

/-- The SC takes the motion state (R182): one other than STANDSTILL ends the session. -/
def sessionTakesMotion (s : State) : State := if s.ci.motion = .standstill then s else endSession .motion s

/-- A changed motion state (R67): the MOTION report, which is placed before the hand-over (R182), then the hand-overs to the WM
and the SC in a free order. -/
def handMotion (s : State) : State :=
  inFreeOrder
    [(decide s.inRun, handMotionToWm), (s.sc.service && decide (s.ci.motion ≠ .standstill), sessionTakesMotion)]
    (report .motion 0 (val s.ci.motion.code) s)

/-! ## Network channels (R64, R65) -/

/-- The STATUS report of a network channel whose status has changed. -/
def reportNet (n : Fin 16) (a b : Net) (s : State) : State :=
  if a.status = b.status then s else reportStatus (netCh n).val b.status .none s

/-- Changes of network channels are handed on: channels, NETLOST presences and a change of the motion state. -/
def handNetworks (before : Interp) (s : State) : State :=
  let s := s.modCi (·.motionStep before)
  handChannels before false ((List.finRange 16).map fun n => (.netlost n, decide (s.ci.net[n].status = .lost)))
    [(decide (s.ci.motion ≠ before.motion), handMotion)] s

/-- A value limited to a channel's range (R64). -/
def NetCfg.limit (c : NetCfg) (v : Int) : Int :=
  if v < c.min then c.min else if c.max < v then c.max else v

/-- A network channel after a posted value (R64). -/
def Net.post (n : Net) (v : Int) : Net :=
  let x := n.cfg.limit v
  { n with value := some x, status := .valid, freshT := some (n.cfg.fresh * 10), lostT := none, initT := none,
           limited := n.limited || decide (x ≠ v) }

/-- One pair of POST_NETWORK is applied (R64), with its LIMITED (R68) and STATUS reports. -/
def applyPost (n : Fin 16) (v : Int) (s : State) : State :=
  let a := s.ci.net[n]
  let b := a.post v
  let s := s.modNet n fun _ => b
  reportNet n a b (if b.limited && !a.limited then report .channelLimited (netCh n).val none s else s)

/-- The pairs to apply (R64): those that name a channel of kind NETWORK, of several for one channel the last. -/
def postedPairs (c : Interp) : List (Nat × Int) → List (Fin 16 × Int)
  | [] => []
  | (ch, v) :: rest =>
    match (item? 40 ch).bind asNet with
    | some n =>
      if c.net[n].cfg.network && rest.all (fun p => decide (p.1 ≠ ch)) then (n, v) :: postedPairs c rest
      else postedPairs c rest
    | none => postedPairs c rest

/-- A POST_NETWORK message is applied (R64). -/
def postNetwork (pairs : List (Fin 16 × Int)) (s : State) : State :=
  handNetworks s.ci (pairs.foldl (fun t p => applyPost p.1 p.2 t) s)

/-- A timer of a network channel has expired (R65): the channel takes its new status and timers. -/
def netExpired (n : Fin 16) (f : Net → Net) (s : State) : State :=
  let a := s.ci.net[n]
  handNetworks s.ci (reportNet n a (f a) (s.modNet n f))

/-- VALID to HELD, the lost timer started (R65). -/
def Net.stale (n : Net) : Net := { n with status := .held, freshT := none, lostT := some (n.cfg.lost * 100) }

/-- To LOST, no timer running (R65). -/
def Net.lose (n : Net) : Net := { n with status := .lost, freshT := none, lostT := none, initT := none }

/-- The standstill timer expires (R67). -/
def standstillExpired (s : State) : State :=
  let before := s.ci.motion
  let s := s.modCi fun c => { c with motion := .standstill, standstillT := none }
  if before = .standstill then s else handMotion s

/-! ## RUN entry and its end (R70, R71) -/

/-- A wired channel at RUN entry (R70). -/
def Wired.runEntry (w : Wired) : Wired :=
  let w := { w with switched := false, limited := false }
  if w.cfg.kind = .off then w else w.restart

/-- A network channel at RUN entry (R70). -/
def Net.runEntry (n : Net) : Net :=
  let n := { n with limited := false }
  if n.cfg.network then
    { n with status := .init, freshT := none, lostT := none, initT := some (n.cfg.fresh * 10 + n.cfg.lost * 100) }
  else n

/-- The CI at RUN entry (R70): the judgement is open, and with it the reference count of the pass is absent, which R70 does
not say: DEDUCED (log 39). -/
def Interp.runEntry (c : Interp) : Interp :=
  { c with
    wired := vmap Wired.runEntry c.wired, net := vmap Net.runEntry c.net, passCount := none, judgement := none,
    failCount := 0, refFault := false, motion := .standstill, standstillT := none }

/-- The standstill timer stops when RUN is left (R67). -/
def stopStandstill (s : State) : State := s.modCi fun c => { c with standstillT := none }

end Sys2Proof.Machine
end

