-- ==== Sys2Proof/Machine/Conversion.lean ====
section
/-! DEFINITION. The Conversion Unit (chapter 3): the conversion, the pass, the priority queue, comparators and latches,
and what RUN entry, PARKED and STOP do to them. -/

namespace Sys2Proof.Machine

/-! ## The priority queue (R36) -/

/-- A channel is queued: merged into the entry that holds it, or added at the tail. -/
def enqueuePrio (ch : Fin 24) (host : Bool) (q : List PrioEntry) : List PrioEntry :=
  if q.any fun e => decide (e.ch = ch) then
    q.map fun e => if e.ch = ch then { e with hostMark := e.hostMark || host } else e
  else q ++ [{ ch, hostMark := host }]

/-- A channel is queued for a priority conversion. -/
def queuePrio (ch : Fin 24) (host : Bool) (s : State) : State :=
  s.modCu fun u => { u with queue := enqueuePrio ch host u.queue }

/-- The channels of the host-marked entries, and of a host-marked conversion in flight, that an abort drops (R37). R37 gives
their reports no order; that they stand oldest entry first, the conversion in flight last, is DESIGN CHOICE (log 38). -/
def ConvUnit.dropped (u : ConvUnit) : List (Fin 24) :=
  (u.queue.filter (·.hostMark)).map (·.ch) ++
    match u.inFlight with
    | some c =>
      match c.target with
      | .wired ch => if c.hostMark then [ch] else []
      | _ => []
    | none => []

/-- CONVERSION_DROPPED for each of some channels (R37), in the order given (log 38). -/
def reportDropped (chs : List (Fin 24)) (s : State) : State :=
  chs.foldl (fun t ch => report .conversionDropped ch.val none t) s

/-! ## A conversion (R30 to R33) -/

/-- The gate code a target is converted with (R33, R34). -/
def State.gateOf (s : State) : Target → Fin 4
  | .reference => 2
  | .supply => 0
  | .wired ch => s.ci.wired[ch].cfg.gate

/-- A conversion starts; `spent` is the time, in quarter ms, that has already passed since (log 7). -/
def startConversion (t : Target) (o : Origin) (host : Bool) (spent : Nat) (s : State) : State :=
  s.modCu fun u =>
    { u with inFlight := some { target := t, origin := o, gate := s.gateOf t, phase := .settle, hostMark := host },
             elapsedQ := spent }

/-- The window of a gate code in quarter milliseconds: 2, 4, 8, 16 ms (R30). -/
def gateWindowQ (g : Fin 4) : Nat := 8 * 2 ^ g.val

/-- The line level of a pin against the bias (R31). -/
def lineLevel (pin bias : Nat) : LineLevel :=
  if 5 * pin < bias then .low else if 4 * bias < 5 * pin then .high else .mid

/-- The result record of a conversion (R30, R32): the counter stops at 65535. -/
def Conversion.result (c : Conversion) (periods pin bias : Nat) : ResultRecord :=
  { target := c.target, count := min 65535 periods, saturated := decide (65535 ≤ periods),
    level := lineLevel pin bias, gate := c.gate, origin := c.origin }

/-- The store of last results (R32). -/
def ConvUnit.store (u : ConvUnit) (r : ResultRecord) : ConvUnit :=
  match r.target with
  | .reference => { u with lastRef := some r.count }
  | .supply => u
  | .wired ch => { u with lastResult := vset u.lastResult ch (some r) }

/-! ## The pass (R35, R43) -/

/-- The channels of the pass: the scan list, or in PARKED the watch set. -/
def State.passList (s : State) : List (Fin 24) := if s.sc.opState = .parked then s.sc.watchSet else s.cu.scan

/-- The target of a pass element. -/
def State.elementTarget (s : State) : PassElement → Target
  | .reference => .reference
  | .supply => .supply
  | .entry i =>
    match s.passList[i]? with
    | some ch => .wired ch
    | none => .reference

/-- The element after one in a pass of `n` entries, REFERENCE where the pass has ended. -/
def PassElement.next (n : Nat) : PassElement → PassElement
  | .reference => .supply
  | .supply => if 0 < n then .entry 0 else .reference
  | .entry i => if i + 1 < n then .entry (i + 1) else .reference

/-- The conversion of the pass element at the pass position starts. -/
def startElement (spent : Nat) (s : State) : State :=
  startConversion (s.elementTarget s.cu.pos) .pass false spent s

/-- The choice of R35 in RUN and SHUTDOWN: after the end of a pass REFERENCE, else a priority conversion while fewer
than four have run, else the pass element. -/
def chooseConversion (passEnded : Bool) (spent : Nat) (s : State) : State :=
  match s.cu.queue with
  | [] => startElement spent s
  | e :: rest =>
    if !passEnded ∧ s.cu.runCount < 4 then
      startConversion (.wired e.ch) .priority e.hostMark spent (s.modCu fun u => { u with queue := rest })
    else startElement spent s

/-- Run count and pass position at the completion of a conversion (R35). -/
def ConvUnit.advance (u : ConvUnit) (o : Origin) (n : Nat) : ConvUnit :=
  match o with
  | .priority => { u with runCount := u.runCount + 1 }
  | .pass => { u with runCount := 0, pos := u.pos.next n }

/-! ## Comparators and latches (R38 to R41) -/

/-- The level of a comparator with threshold `w` on a loop, from the level it had (R38); `old` decides inside the
window. -/
def comparatorLevel (ohms w : Nat) (old : Comparator) : Comparator :=
  if 17 * w < 16 * ohms then .above else if 16 * ohms < 15 * w then .below else old

/-- The level of a comparator that is powered up: from the loop, free inside the window (R38, log 12). -/
def State.powerUpLevel (s : State) (ch : Fin 24) : Comparator :=
  comparatorLevel s.cu.loopOhms[ch] s.ci.wired[ch].cfg.watchThr
    (if Config.powerUpAbove (24 * s.freeCount + ch.val) then .above else .below)

/-- Exactly the comparators of `on` are powered, those already powered keeping their level; a latch without power is
ARMED (R38, R41). -/
def powerComparators (on : Fin 24 → Bool) (s : State) : State :=
  let level (ch : Fin 24) : Comparator :=
    if on ch then
      (if s.cu.comparator[ch] = .unpowered then s.powerUpLevel ch else s.cu.comparator[ch])
    else .unpowered
  { s.modCu fun u =>
      { u with comparator := tab level, latch := tab fun ch => if on ch then u.latch[ch] else .armed } with
    freeCount := s.freeCount + 1 }

/-- The latch is re-armed (R40): the confirmed class lies on the comparator's side. -/
def State.rearms (s : State) (ch : Fin 24) : Bool :=
  let w := s.ci.wired[ch]
  match w.confirmed.bind w.cfg.side with
  | some side => decide (side = s.cu.comparator[ch])
  | none => false

/-- The latch work at the completion of a wired conversion (R40). -/
def latchWork (ch : Fin 24) (s : State) : State :=
  if s.cu.latch[ch] = .set then
    if s.rearms ch then s.modCu fun u => { u with latch := vset u.latch ch .armed }
    else if s.live then queuePrio ch false s
    else s
  else s

/-- The latch work of a target. -/
def latchWorkOf (t : Target) (s : State) : State :=
  match t with
  | .wired ch => latchWork ch s
  | _ => s

/-- CONVERTED for a host-marked priority conversion (R37). -/
def reportConverted (r : ResultRecord) (s : State) : State :=
  match r.target with
  | .wired ch => report .converted ch.val (val r.count) s
  | _ => s

/-- The completion of a conversion (R32): the record is stored, the CI takes it while CONVERTED is placed in a free order
(R9), the latch work is done, and run count and pass position move. -/
def completeConversion (c : Conversion) (r : ResultRecord) (s : State) : State :=
  let s := s.modCu fun u => { u.store r with inFlight := none }
  let s := inFreeOrder [(true, takeResult r), (c.hostMark, reportConverted r)] s
  let s := latchWorkOf r.target s
  s.modCu (·.advance c.origin s.passList.length)

/-! ## RUN entry, PARKED, STOP (R42 to R44) -/

/-- The conversion in flight and the queue are gone, run count and pass position at their beginning. -/
def ConvUnit.abort (u : ConvUnit) : ConvUnit :=
  { u with inFlight := none, elapsedQ := 0, queue := [], runCount := 0, pos := .reference }

/-- The CU at RUN entry (R42), without its reports: a path READY starts the first REFERENCE at once. -/
def convRunEntry (s : State) : State :=
  let s := powerComparators (fun ch => s.ci.wired[ch].cfg.watched) (s.modCu (·.abort))
  let s := s.modCu fun u =>
    { u with
      queue := ((List.finRange 24).filter fun ch => decide (u.latch[ch] = .set)).map fun ch => { ch, hostMark := false }
      path := if u.path = .unpowered then .settling else u.path
      settleMs := if u.path = .unpowered then 0 else u.settleMs }
  if s.cu.path = .ready then startElement 0 s else s

/-- The CU at entry to PARKED (R43), without its reports. -/
def convPark (s : State) : State :=
  let s := powerComparators (fun ch => decide (ch ∈ s.sc.watchSet)) (s.modCu (·.abort))
  s.modCu fun u => { u with path := .unpowered, settleMs := 0, latch := Vector.replicate 24 .armed }

/-- The CU at STOP (R44), without its reports. -/
def convStop (s : State) : State :=
  s.modCu fun u =>
    { u.abort with path := .unpowered, settleMs := 0, comparator := Vector.replicate 24 .unpowered,
                   latch := Vector.replicate 24 .armed }

/-- A watch pass begins (R43). -/
def beginWatchPass (spent : Nat) (s : State) : State :=
  startElement spent (s.modCu fun u => { u with pos := .reference })

end Sys2Proof.Machine
end

