-- ==== Sys2Proof/Machine/Controller.lean ====
section
/-! DEFINITION. The State Controller (chapter 2): RUN entry, SHUTDOWN, PARKED, STOP, ignition, the parked watch, the
rebuild's completion and the resets. -/

namespace Sys2Proof.Machine

/-- The STATE_CHANGED report of the operating state held (R15). -/
def reportState (s : State) : State := report .stateChanged 0 (val s.sc.opState.code) s

/-! ## RUN entry (R20) -/

/-- The ignition cycle number settled, and the state RUN taken (R20). -/
def Controller.enterRun (c : Controller) : Controller :=
  { c with
    opState := .run, watch := .quiet, newCycle := false
    cycle := if c.newCycle then min 65535 (c.cycle + 1) else c.cycle }

/-- FM and WM at RUN entry: the index is aged before any warning of the new cycle can confirm, so that AGED_OUT reports
come before WARNING reports, which no rule says: DESIGN CHOICE (log 46). -/
def faultsAndWarnings (s : State) : State := warningsRunEntry (ageEntries s)

/-- RUN entry (R20): what the blocks set without a report comes first; the reports, and the warnings' evaluation, follow
in a free order of blocks. -/
def enterRun (s : State) : State :=
  let drops := s.cu.dropped
  let s := s.modSc (·.enterRun)
  let s := (s.modCi (·.runEntry)).modGe (vmap Gauge.runEntry)
  let s := alertsRunEntry (resetWarnings (faultsRunEntry (resetLeaves s)))
  let s := convRunEntry s
  inFreeOrder
    [(true, reportState),
     (!drops.isEmpty, reportDropped drops),
     ((List.finRange 8).any fun g => s.ge[g].record.isSome, forEach gaugeRunEntry),
     (s.dm.allSecure != s.dm.doorsClear, deriveDoorsClear),
     ((s.fm.index.any fun e => e.aged s.sc.cycle) || (List.finRange 64).any fun w => s.wm.defs[w].isSome,
       faultsAndWarnings)] s

/-! ## PARKED, SHUTDOWN, STOP (R22, R24, R27) -/

/-- Entry to PARKED (R27, R43): quiet watch, new cycle, conversion ended, door timers stopped. -/
def enterParked (s : State) : State :=
  let drops := s.cu.dropped
  let s := s.modSc fun c => { c with opState := .parked, watch := .quiet, newCycle := true, ignPending := false }
  let s := convPark (doorsPark (stopStandstill s))
  inFreeOrder [(true, reportState), (!drops.isEmpty, reportDropped drops)] s

/-- A CYCLE record of the present cycle number and operating seconds is queued (R21). -/
def queueCycle (s : State) : State := queueRecord (.cycle s.sc.cycle s.sc.opSeconds) s

/-- Entry to SHUTDOWN (R22): the session ends first, the CYCLE record is queued, the blocks respond. -/
def enterShutdown (s : State) : State :=
  let s := queueCycle (endSession .shutdown s)
  let s := s.modSc fun c => { c with cycleInterval := 0, ignPending := false, opState := .shutdown }
  let s := warningsLeaveRun (queueDoorStats (stopStandstill s))
  inFreeOrder
    [(true, reportState),
     ((List.finRange 8).any fun g => decide (s.ge[g].pointer ≠ .unpowered), forEach parkGauge),
     (s.dm.doorsClear, setDoorsClear false)] s

/-- The effect of STOP in RUN (R24). -/
def stopFromRun (s : State) : State :=
  let s := endSession .stop s
  let drops := s.cu.dropped
  let s := s.modSc fun c => { c with opState := .config }
  let s := warningsLeaveRun (convStop (stopDoorTimers (stopStandstill s)))
  inFreeOrder
    [(true, reportState),
     (!drops.isEmpty, reportDropped drops),
     ((List.finRange 8).any fun g => decide (s.ge[g].pointer ≠ .unpowered), forEach stopGauge),
     (s.dm.doorsClear, setDoorsClear false)] s

/-- The effect of STOP in PARKED (R24): a watch wake ends without a report. -/
def stopFromParked (s : State) : State :=
  let drops := s.cu.dropped
  let s := convStop (s.modSc fun c => { c with opState := .config, watch := .quiet })
  inFreeOrder [(true, reportState), (!drops.isEmpty, reportDropped drops)] s

/-- The three conditions of SHUTDOWN's completion (R23). -/
def State.shutdownDone (s : State) : Bool :=
  (List.finRange 8).all (fun g => decide (s.ge[g].pointer = .unpowered)) && s.jc.drained &&
    decide (s.jc.reclaim = .idle)

/-- The completion of SHUTDOWN (R23). -/
def completeShutdown (s : State) : State :=
  let s := s.modSc fun c => { c with newCycle := true }
  if s.sc.ignPending then enterRun s else enterParked s

/-! ## Ignition (R16, R29) -/

/-- Ignition ON confirmed (R16, R29): the IGNITION report before those of the RUN entry it makes (log 46). -/
def ignitionOn (s : State) : State :=
  let s := report .ignition 0 (val 1) (s.modSc fun c => { c with ignOn := true })
  match s.sc.opState, s.sc.watch with
  | .shutdown, _ => s.modSc fun c => { c with ignPending := true }
  | .parked, .quiet => enterRun s
  | .parked, .waking => s.modSc fun c => { c with ignPending := true }
  | .parked, _ => enterRun (s.modSc fun c => { c with ignPending := true })
  | _, _ => s

/-- Ignition OFF confirmed (R16, R29): the IGNITION report before those of the SHUTDOWN it enters (log 46). -/
def ignitionOff (s : State) : State :=
  let s := report .ignition 0 (val 0) (s.modSc fun c => { c with ignOn := false })
  match s.sc.opState with
  | .run => enterShutdown s
  | .shutdown | .parked => s.modSc fun c => { c with ignPending := false }
  | _ => s

/-- One operating second (R21). -/
def operatingSecond (s : State) : State :=
  let s := s.modSc fun c =>
    { c with remainderMs := c.remainderMs - 1000, opSeconds := min 4294967295 (c.opSeconds + 1),
             cycleInterval := c.cycleInterval + 1 }
  if 3600 ≤ s.sc.cycleInterval then queueCycle (s.modSc fun c => { c with cycleInterval := 0 }) else s

/-! ## The parked watch (R28, R29) -/

/-- A watch wake begins at the channel whose latch was set (R28). -/
def beginWake (ch : Fin 24) (s : State) : State :=
  let s := s.modSc fun c => { c with watch := .settling }
  report .watchWake 0 (val ch.val) (s.modCu fun u => { u with path := .settling, settleMs := 0 })

/-- A comparator event has set an ARMED latch (R39). -/
def latchSet (ch : Fin 24) (s : State) : State :=
  let s := s.modCu fun u => { u with latch := vset u.latch ch .set }
  match s.sc.opState, s.sc.watch with
  | .run, _ | .shutdown, _ => queuePrio ch false s
  | .parked, .quiet => beginWake ch s
  | .parked, .draining => beginWatchPass 0 (s.modSc fun c => { c with watch := .waking })
  | _, _ => s

/-- The loop at a wired pin changes (R38, R39): a powered comparator whose level changes gives the event. -/
def loopChanges (ch : Fin 24) (ohms : Nat) (s : State) : State :=
  let s := s.modCu fun u => { u with loopOhms := vset u.loopOhms ch ohms }
  let old := s.cu.comparator[ch]
  if old = .unpowered then s
  else
    let new := comparatorLevel ohms s.ci.wired[ch].cfg.watchThr old
    if new = old then s
    else
      let s := s.modCu fun u => { u with comparator := vset u.comparator ch new }
      if s.cu.latch[ch] = .armed then latchSet ch s else s

/-- The settle of a wake ends (R28). -/
def watchSettled (s : State) : State :=
  let s := s.modSc fun c => { c with watch := .waking }
  beginWatchPass 0 (s.modCu fun u => { u with path := .ready })

/-- Every latch of the watch set is armed (R28). -/
def State.watchArmed (s : State) : Bool := s.sc.watchSet.all fun ch => decide (s.cu.latch[ch] = .armed)

/-- The end of a watch pass (R28, R29): the DM evaluates, then the SC enters RUN, begins another pass, or drains. -/
def endWatchPass (spent : Nat) (s : State) : State :=
  let s := forEach parkedEvaluate s
  if s.sc.ignPending then enterRun s
  else if s.watchArmed then s.modSc fun c => { c with watch := .draining }
  else beginWatchPass spent s

/-- The wake ends in quiet watch (R28). -/
def watchQuiet (s : State) : State :=
  let s := s.modSc fun c => { c with watch := .quiet }
  report .watchQuiet 0 none (s.modCu fun u => { u with path := .unpowered, settleMs := 0 })

/-- What follows the completion of a conversion: in RUN and SHUTDOWN the next choice, in PARKED the watch pass. -/
def afterConversion (o : Origin) (spent : Nat) (s : State) : State :=
  let ended := decide (o = .pass) && decide (s.cu.pos = .reference)
  if s.live then chooseConversion ended spent s
  else if s.sc.opState = .parked then
    if ended then endWatchPass spent s else startElement spent s
  else s

/-! ## Rebuild and resets (R25, R26, R174) -/

/-- The rebuild completes (R174): the array is read back, the values go to their owners, the reclaim may start, and the
part enters CONFIG. -/
def rebuilt (s : State) : State :=
  let j := s.jc.readBack
  let found := j.cycleFound
  let s := s.modJc fun _ => j.afterRebuild
  let s := s.modSc fun c => { c with cycle := found.1, opSeconds := found.2, opState := .config }
  let s := s.modDm fun d => { d with stats := j.statsFound }
  let s := takeEntries (j.faultsFound found.1) (s.modLi fun l => { l with vehicleId := j.identity })
  reportState (jcChoose s)

/-- Every block at its values after a reset (R14, R25); the pins, the waiting commands and the count of free values are
not the part's to lose. -/
def resetPart (lrateHigh : Bool) (jc : Journal) (s : State) : State :=
  { State.reset with
    pending := s.pending
    li := { Link.reset with lineRate := if lrateHigh then .baud460800 else .baud115200 }
    sc := { Controller.reset with ignRaw := s.sc.ignRaw }
    cu := { ConvUnit.reset with loopOhms := s.cu.loopOhms }
    jc
    freeCount := s.freeCount }

end Sys2Proof.Machine
end

