-- ==== Sys2Proof/Machine/Link.lean ====
section
/-! DEFINITION. The Link Interface's frames (chapter 1, section 12.1): the check value, the replies and refusals, and the
transmitter that holds the reply in progress. -/

namespace Sys2Proof.Machine

/-! ## The check value (R4) -/

/-- One bit of the CRC-16 with generator polynomial 0x1021, most significant bit first. -/
def crcBit (c : Word16) : Word16 := if c.getMsbD 0 then (c <<< 1) ^^^ 0x1021 else c <<< 1

/-- One byte enters the check value. -/
def crcByte (c : Word16) (b : Byte) : Word16 :=
  (List.range 8).foldl (fun c _ => crcBit c) (c ^^^ (b.setWidth 16 <<< 8))

/-- The check value of some bytes, from the initial value 0xFFFF. -/
def crc16 (bytes : List Byte) : Word16 := bytes.foldl crcByte 0xFFFF

/-! ## Frames and replies -/

/-- The byte SYNC. -/
def syncByte : Byte := 0xC3

/-- A frame: SYNC, LENGTH, KIND, TAG, PAYLOAD and CHECK, low byte first. -/
def buildFrame (kind : Nat) (tag : Byte) (payload : List Byte) : List Byte :=
  let body := b1 (payload.length + 2) ++ b1 kind ++ [tag] ++ payload
  syncByte :: body ++ b2 (crc16 body).toNat

/-- Refusal reasons (section 12.1). -/
inductive Reason where
  | badFrame | unknownKind | badLength | badValue | wrongState | notInService | busy | locked | badConfig
  | notStandstill
  deriving DecidableEq, Repr

def Reason.code : Reason → Nat
  | .badFrame => 0x01 | .unknownKind => 0x02 | .badLength => 0x03 | .badValue => 0x04 | .wrongState => 0x05
  | .notInService => 0x06 | .busy => 0x07 | .locked => 0x08 | .badConfig => 0x09 | .notStandstill => 0x0A

/-- Item classes of BAD_CONFIG (section 12.1). -/
inductive ItemClass where
  | scan | channel | motion | gauge | warning | leaf | freeze
  deriving DecidableEq, Repr

def ItemClass.code : ItemClass → Nat
  | .scan => 1 | .channel => 2 | .motion => 3 | .gauge => 4 | .warning => 5 | .leaf => 6 | .freeze => 7

/-- What a taken request is answered with (R6, R7). -/
inductive Reply where
  | positive (payload : List Byte)
  | refused (reason : Reason)
  | badConfig (item : ItemClass) (number : Nat)
  deriving DecidableEq, Repr

/-- A positive reply that carries one outcome. -/
def Reply.outcome (o : ReplyOutcome) : Reply := .positive (b1 o.code)

/-- The reply frame to a request of a kind and tag. -/
def Reply.frame (kind : Nat) (tag : Byte) : Reply → List Byte
  | .positive payload => buildFrame (kind + 0x80) tag payload
  | .refused reason => buildFrame 0xFF tag (b1 reason.code)
  | .badConfig item number => buildFrame 0xFF tag (b1 Reason.badConfig.code ++ b1 item.code ++ b1 number)

/-- The transmitter enters ANSWERING with a reply (R5). -/
def sendReply (kind : Nat) (tag : Byte) (r : Reply) (s : State) : State :=
  s.modLi fun l => { l with transmitter := .answering (r.frame kind tag) }

/-- A frame that completes now is taken (R5): the transmitter is IDLE, and no RESTART waits for its soft restart
(log 33). -/
abbrev State.taking (s : State) : Prop := s.li.transmitter = .idle ∧ s.li.restartPending = false

end Sys2Proof.Machine
end

