-- ==== Sys2Proof/Machine/Configure.lean ====
section
/-! DEFINITION. The configuration requests (SET_REFERENCE to SET_FREEZE): the checks of each owner in their order, and
the effect of an accepted request. -/

namespace Sys2Proof.Machine

/-- What an owner does with a request: the state after it, and the reply. A refusal leaves the state as it was (R6). -/
abbrev Answer := State × Reply

/-- A positive reply without payload. -/
abbrev done (s : State) : Answer := (s, .positive [])

/-- A refusal: the state unchanged. -/
abbrev refuse (reason : Reason) (s : State) : Answer := (s, .refused reason)

/-- A full form parsed to a value by its field checks, or BAD_VALUE. -/
def parsed {α : Type} (x : Option α) (f : α → Answer) (s : State) : Answer :=
  match x with
  | some a => f a
  | none => refuse .badValue s

/-- A number within bounds, inclusive. -/
abbrev within (lo hi n : Nat) : Bool := decide (lo ≤ n) && decide (n ≤ hi)

/-- A value where a check holds. -/
def check {α : Type} (b : Bool) (x : Option α) : Option α := if b then x else none

/-! ## Reference, channels, scan, motion -/

/-- SET_REFERENCE (R50). -/
def setReference (p : List Byte) (s : State) : Answer :=
  let r := u16 p 0
  let lo := u16 p 2
  let hi := u16 p 4
  if within 500 5000 r && within 4 65534 lo && within 4 65534 hi && decide (lo < hi) then
    done (s.modCi fun c => { c with rRef := r, nRefMin := lo, nRefMax := hi })
  else refuse .badValue s

/-- The wired kind of a code (R189); NETWORK is no kind of a wired channel. -/
def WiredKind.ofCode : Nat → Option WiredKind
  | 0 => some .off | 1 => some .switch | 2 => some .sender | _ => none

/-- A band meaning that a kind may carry (R48). -/
def WiredKind.allows : WiredKind → BandMeaning → Bool
  | _, .faultShort | _, .faultOpen => true
  | .switch, .active | .switch, .inactive => true
  | .sender, .value => true
  | _, _ => false

/-- The thresholds of a SET_CHANNEL payload. -/
def channelThresholds (p : List Byte) : List Nat := (List.range (u8 p 10)).map fun i => u32 p (11 + 4 * i)

/-- The band meanings of a SET_CHANNEL payload, where every one is a code the kind may carry. -/
def channelMeanings (k : WiredKind) (p : List Byte) : Option (List BandMeaning) :=
  (List.range (u8 p 10 + 1)).mapM fun i =>
    (BandMeaning.ofCode (u8 p (11 + 4 * u8 p 10 + i))).bind fun m => if k.allows m then some m else none

/-- The full configuration of a non-OFF wired channel, by the checks of R48 after the band table's length. -/
def wiredConfig (ch : Fin 24) (k : WiredKind) (p : List Byte) : Option WiredCfg := do
  let gate ← item? 4 (u8 p 2)
  let thresholds := channelThresholds p
  let meanings ← channelMeanings k p
  let watch ← boolOf (u8 p 4)
  let partner ← optItem? 24 (u8 p 9)
  check (within 1 7 (u8 p 3) && thresholds.all (fun t => decide (t ≤ 200000))
      && (!watch || (decide (k = .switch) && within 1 200000 (u32 p 5))) && decide (partner ≠ some ch))
    (some { kind := k, gate, confirm := u8 p 3, thresholds, meanings, watch, watchThr := u32 p 5, partner })

/-- An accepted SET_CHANNEL of a wired channel (R48): the channel begins again, and its wiring fault is absent
(log 19). That a non-OFF channel takes INIT and NONE (R48) while REFERENCE_FAULT stands too, not FAULT and UNDETERMINED (R55),
is DESIGN CHOICE (log 48). -/
def putWired (ch : Fin 24) (cfg : WiredCfg) (s : State) : Answer :=
  done (setPresence (.wiring ch) false (s.modWired ch fun _ => Wired.fresh cfg))

/-- SET_CHANNEL for a wired channel (R48). Kind OFF clears the whole configuration; that its gate code and confirm count,
which R48 does not name there, become 0 is DESIGN CHOICE (log 40). -/
def setWired (ch : Fin 24) (p : List Byte) (s : State) : Answer :=
  match WiredKind.ofCode (u8 p 1) with
  | none => refuse .badValue s
  | some .off => putWired ch .cleared s
  | some k =>
    if p.length < 12 ∨ 5 < u8 p 10 ∨ p.length ≠ 12 + 5 * u8 p 10 then refuse .badLength s
    else parsed (wiredConfig ch k p) (fun cfg => putWired ch cfg s) s

/-- An accepted SET_CHANNEL of a network channel (R49): the channel begins again, and is not LOST (log 19). -/
def putNet (n : Fin 16) (cfg : NetCfg) (s : State) : Answer :=
  done (setPresence (.netlost n) false (s.modNet n fun _ => Net.fresh cfg))

/-- SET_CHANNEL for a network channel (R49). Kind OFF clears the configuration; that its minimum, maximum, freshness time and
lost time, which R49 does not examine there, become 0 is DESIGN CHOICE (log 40). -/
def setNet (n : Fin 16) (p : List Byte) (s : State) : Answer :=
  if u8 p 1 = 0 then putNet n .cleared s
  else if u8 p 1 ≠ 3 then refuse .badValue s
  else if p.length ≠ 8 then refuse .badLength s
  else if s16 p 4 < s16 p 2 ∨ !within 5 255 (u8 p 6) ∨ !within 1 255 (u8 p 7) then refuse .badValue s
  else putNet n { network := true, min := s16 p 2, max := s16 p 4, fresh := u8 p 6, lost := u8 p 7 } s

/-- SET_CHANNEL (R48, R49, R190). -/
def setChannel (p : List Byte) (s : State) : Answer :=
  match item? 40 (u8 p 0) with
  | none => refuse .badValue s
  | some ch =>
    match asWired ch, asNet ch with
    | some w, _ => setWired w p s
    | none, some n => setNet n p s
    | none, none => refuse .badValue s

/-- SET_SCAN (R34). -/
def setScan (p : List Byte) (s : State) : Answer :=
  parsed (p.mapM fun b => wired? b.toNat) (fun scan => done (s.modCu fun u => { u with scan })) s

/-- SET_MOTION (R66). -/
def setMotion (p : List Byte) (s : State) : Answer :=
  parsed (check (within 5 100 (u8 p 1) && within 0 99 (u8 p 2)) (item? 40 (u8 p 0)))
    (fun ch => done (s.modCi fun c => { c with motionChannel := some ch, moveThr := u8 p 1, stopThr := u8 p 2 })) s

/-! ## Gauges -/

/-- The full record of SET_GAUGE, by the checks of R72. -/
def gaugeRecord (p : List Byte) : Option GaugeRec := do
  let source ← item? 40 (u8 p 1)
  let sweep ← boolOf (u8 p 12)
  check (within 100 4000 (u16 p 6) && within 0 4000 (u16 p 8) && within 0 7 (u8 p 10) && within 1 255 (u8 p 11))
    (some { source, vMin := s16 p 2, vMax := s16 p 4, span := u16 p 6, rest := u16 p 8, k := u8 p 10,
            slew := u8 p 11, sweep })

/-- SET_GAUGE (R72); the curve is kept. -/
def setGauge (p : List Byte) (s : State) : Answer :=
  parsed (item? 8 (u8 p 0)) (fun g =>
    if p.length = 1 then done (s.modGauge g fun x => Gauge.fresh none x.curve)
    else parsed (gaugeRecord p) (fun r => done (s.modGauge g fun x => Gauge.fresh (some r) x.curve)) s) s

/-- The points of a SET_CURVE payload. -/
def curvePoints (p : List Byte) : List CurvePoint :=
  (List.range ((p.length - 1) / 6)).map fun i => { x := s32 p (1 + 6 * i), y := s16 p (5 + 6 * i) }

/-- SET_CURVE (R73). -/
def setCurve (p : List Byte) (s : State) : Answer :=
  let points := curvePoints p
  parsed (check (points.all fun q => decide (-32768 ≤ q.x) && decide (q.x ≤ 200000)) (item? 8 (u8 p 0)))
    (fun g => done (s.modGauge g fun x => { x with curve := points })) s

/-! ## Warnings -/

/-- How many operand bytes a condition type takes (R95, section 12.4); none for a code that is no type. -/
def operandLength : Nat → Option Nat
  | 0 | 3 | 4 | 5 | 6 | 7 | 8 => some 1
  | 1 | 2 => some 5
  | 9 | 10 | 11 => some 0
  | _ => none

/-- A condition from its type code and the operands at offset 2 (R93). -/
def condition (p : List Byte) : Option Condition :=
  let ch := item? 40 (u8 p 2)
  let g := check (decide (u16 p 5 ≤ 32767)) (item? 8 (u8 p 2))
  let leaves := check (decide (u8 p 2 ≠ 0)) (some (BitVec.ofNat 8 (u8 p 2)))
  match u8 p 1 with
  | 0 => ch.map .switchActive
  | 1 => g.map fun g => .valueBelow g (s16 p 3) (u16 p 5)
  | 2 => g.map fun g => .valueAbove g (s16 p 3) (u16 p 5)
  | 3 => ch.map .channelFault
  | 4 => ch.map .channelLost
  | 5 => leaves.map .doorNotSecure
  | 6 => leaves.map .doorReleased
  | 7 => leaves.map .doorObstructed
  | 8 => leaves.map .doorFault
  | 9 => some .supplyLow
  | 10 => some .supplyHigh
  | 11 => some .motionUnknown
  | _ => none

/-- The definition a SET_WARNING payload carries, its fixed part from offset `o`, by the checks of R93. -/
def warnDef (p : List Byte) (o : Nat) : Option WarnDef := do
  let cond ← condition p
  let gating ← Gating.ofCode (u8 p o)
  let priority ← Priority.ofCode (u8 p (o + 1))
  let lamp ← optItem? 24 (u8 p (o + 4))
  let style ← LampStyle.ofCode (u8 p (o + 5))
  let env ← envOfByte (u8 p (o + 6))
  let pattern ← optItem? 8 (u8 p (o + 7))
  let f := u8 p (o + 3)
  let reAlert := u16 p (o + 8)
  check (decide (f < 8) && !(lamp.isSome && decide (style = .flash) && decide (env = 0))
      && (decide (reAlert = 0) || within 10 600 reAlert) && (!f.testBit 0 || f.testBit 1))
    (some { cond, gating, priority, delay := u8 p (o + 2), latching := f.testBit 0, ackable := f.testBit 1,
            faultLink := f.testBit 2, lamp, style, env, pattern, reAlert })

/-- An accepted SET_WARNING (R93): the definition replaced, the instance at rest. -/
def putWarning (w : Fin 64) (d : Option WarnDef) (s : State) : Answer :=
  done (s.modWm fun m => { m with defs := vset m.defs w d, inst := vset m.inst w .rest })

/-- SET_WARNING (R93). -/
def setWarning (p : List Byte) (s : State) : Answer :=
  parsed (item? 64 (u8 p 0)) (fun w =>
    if p.length = 1 then putWarning w none s
    else parsed (operandLength (u8 p 1)) (fun n =>
      if p.length ≠ 12 + n then refuse .badLength s
      else parsed (warnDef p (2 + n)) (fun d => putWarning w (some d) s) s) s) s

/-! ## Lamps and patterns -/

/-- SET_LAMP (R113). -/
def setLamp (p : List Byte) (s : State) : Answer :=
  parsed (item? 24 (u8 p 0)) (fun l =>
    parsed (boolOf (u8 p 1)) (fun use => done (s.modAo fun a => { a with used := vset a.used l use })) s) s

/-- The full form of SET_PATTERN, by the checks of R114. -/
def pattern (p : List Byte) : Option Pattern := do
  let tone ← Tone.ofCode (u8 p 1)
  let env ← envOfByte (u8 p 2)
  check (within 0 15 (u8 p 3)) (some { tone, env, rep := u8 p 3 })

/-- SET_PATTERN (R114). -/
def setPattern (p : List Byte) (s : State) : Answer :=
  parsed (item? 8 (u8 p 0)) (fun n =>
    if p.length = 1 then done (s.modAo fun a => { a with patterns := vset a.patterns n none })
    else parsed (pattern p) (fun q => done (s.modAo fun a => { a with patterns := vset a.patterns n (some q) })) s) s

/-! ## Leaves -/

/-- An input slot of SET_LEAF at offset `o`: not mapped (0xFF), or a channel with a polarity; outer none is refused. -/
def leafInput (p : List Byte) (o : Nat) : Option (Option LeafInput) :=
  if u8 p o = 0xFF then some none
  else do
    let ch ← item? 40 (u8 p o)
    let inverted ← boolOf (u8 p (o + 1))
    return some { ch, inverted }

/-- The full form of SET_LEAF, by the checks of R126: CLOSED is always mapped. -/
def leafConfig (p : List Byte) : Option LeafCfg := do
  let doorway ← item? 4 (u8 p 1)
  let closed ← leafInput p 2
  let locked ← leafInput p 4
  let openEnd ← leafInput p 6
  let edge ← leafInput p 8
  let release ← leafInput p 10
  let watched ← boolOf (u8 p 15)
  let chs := ([closed, locked, openEnd, edge, release].filterMap id).map (·.ch)
  check (closed.isSome && decide chs.Nodup && within 5 100 (u8 p 12) && within 1 50 (u8 p 13)
      && within 5 150 (u8 p 14))
    (some { doorway, inputs := #v[closed, locked, openEnd, edge, release], travel := u8 p 12, lockTo := u8 p 13,
            closing := u8 p 14, watched })

/-- An accepted SET_LEAF (R126): the leaf begins again; a changed leaf state is reported, the doorways it left and joins
are derived, and its door faults are absent (log 19). -/
def putLeaf (i : Fin 8) (cfg : Option LeafCfg) (s : State) : Answer :=
  let old := s.dm.leaves[i]
  let s := s.modLeaf i fun _ => Leaf.fresh cfg
  let s := if old.state = .unknown then s else report .leafState i.val (val LeafState.unknown.code) s
  let doorways := (old.cfg.map (·.doorway)).toList ++ (cfg.map (·.doorway)).toList
  let s := forEach (fun w t => if w ∈ doorways then deriveDoorway w t else t) s
  done (setPresence (.doorInput i) false (setPresence (.doorLock i) false s))

/-- SET_LEAF (R126). -/
def setLeaf (p : List Byte) (s : State) : Answer :=
  parsed (item? 8 (u8 p 0)) (fun i =>
    if p.length = 1 then putLeaf i none s
    else parsed (leafConfig p) (fun c => putLeaf i (some c) s) s) s

/-! ## Freeze set -/

/-- SET_FREEZE (R154). -/
def setFreeze (p : List Byte) (s : State) : Answer :=
  parsed ((List.range (p.length / 2)).mapM fun i => Selector.ofBytes (u8 p (2 * i)) (u8 p (2 * i + 1)))
    (fun freeze => done (s.modFm fun f => { f with freeze })) s

end Sys2Proof.Machine
end

