-- ==== Sys2Proof/Machine/Readout.lean ====
section
/-! DEFINITION. The requests that read (IDENTIFY, GET_STATE, FETCH_REPORTS, the READ group): their checks and the payloads
of R192 and R194. -/

namespace Sys2Proof.Machine

/-- A flag as a number. -/
def bit (b : Bool) : Nat := if b then 1 else 0

/-- IDENTIFY (R12, R192). -/
def State.identity (s : State) : List Byte :=
  b2 Config.vendorCode ++ b2 Config.partCode ++ b1 (65 + Config.revision.val) ++ s.jc.factory
    ++ b1 Config.journalFormat ++ b1 (bit s.li.vehicleId.isSome) ++ s.li.vehicleId.getD []

def identify (_ : List Byte) (s : State) : Answer := (s, .positive s.identity)

/-- The fault flags: memory-full, clear pending. -/
def FaultMem.flagByte (f : FaultMem) : List Byte := flags [f.full, f.clearPending]

/-- GET_STATE (R13, R192). -/
def State.snapshot (s : State) : List Byte :=
  b1 s.sc.opState.code ++ b1 (bit s.sc.service) ++ b1 s.li.reports.length ++ b1 s.fm.index.length ++ s.fm.flagByte
    ++ flags [decide (s.jc.reclaim ≠ .idle)] ++ b1 s.jc.queue.length ++ b1 s.ci.motion.code ++ b1 s.ci.supply.code
    ++ b2 s.sc.cycle ++ b4 s.sc.opSeconds

def getState (_ : List Byte) (s : State) : Answer := (s, .positive s.snapshot)

/-- FETCH_REPORTS (R11): the oldest reports leave the queue and travel in the reply. -/
def fetchReports (p : List Byte) (s : State) : Answer :=
  if !within 1 12 (u8 p 0) then refuse .badValue s
  else
    let out := s.li.reports.take (u8 p 0)
    let left := s.li.reports.drop (u8 p 0)
    (s.modLi fun l => { l with reports := left },
      .positive (b1 out.length ++ b1 left.length ++ out.flatMap Report.bytes))

/-- First and count of a readout whose range must fit (R69, R91, R145). -/
def rangeGood (n maxCount : Nat) (p : List Byte) : Bool :=
  decide (u8 p 0 < n) && within 1 maxCount (u8 p 1) && decide (u8 p 0 + u8 p 1 ≤ n)

/-- The items of a readout's range. -/
def readItems (n : Nat) (p : List Byte) : List (Fin n) :=
  ((List.finRange n).drop (u8 p 0)).take (u8 p 1)

/-! ## Channels (R69, R194) -/

/-- The reference judgement field (R189). -/
def Interp.judgementCode (c : Interp) : Nat :=
  if c.refFault then 2
  else match c.judgement with
    | some .good => 0
    | some .failed => 1
    | none => 3

/-- The header of READ_CHANNELS. -/
def Interp.header (c : Interp) (n : Nat) : List Byte :=
  b1 c.judgementCode ++ b1 c.failCount ++ b2 (c.passCount.getD 0) ++ b2 (c.supplyMv.getD 0) ++ b1 c.supply.code
    ++ b1 c.motion.code ++ flags [c.passCount.isSome, c.supplyMv.isSome] ++ b1 n

/-- The entry of a wired channel. -/
def Interp.wiredEntry (c : Interp) (ch : Fin 24) : List Byte :=
  let w := c.wired[ch]
  b1 ch.val ++ b1 w.cfg.kind.code ++ b1 w.status.code ++ b1 w.wiring.code ++ b1 (classCode w.confirmed)
    ++ b4 (w.value.getD 0) ++ b1 ((w.reading.map SwitchReading.code).getD 0xFF)
    ++ b1 (c.eff (wiredCh ch)).status.code ++ flags [w.value.isSome, w.switched, w.limited]

/-- The entry of a network channel. -/
def Interp.netEntry (c : Interp) (n : Fin 16) : List Byte :=
  let x := c.net[n]
  b1 (24 + n.val) ++ b1 x.cfg.kindCode ++ b1 x.status.code ++ b1 WiringClass.none.code ++ b1 (classCode none)
    ++ i4 (x.value.getD 0) ++ b1 0xFF ++ b1 x.status.code ++ flags [x.value.isSome, false, x.limited]

/-- The entry of a channel. -/
def Interp.entry (c : Interp) (ch : Fin 40) : List Byte :=
  match asWired ch, asNet ch with
  | some w, _ => c.wiredEntry w
  | none, some n => c.netEntry n
  | none, none => []

/-- READ_CHANNELS (R69). -/
def readChannels (p : List Byte) (s : State) : Answer :=
  if rangeGood 40 12 p then
    (s, .positive (s.ci.header (u8 p 1) ++ (readItems 40 p).flatMap s.ci.entry))
  else refuse .badValue s

/-! ## Gauges (R91, R194) -/

/-- The entry of a gauge. -/
def State.gaugeEntry (s : State) (g : Fin 8) : List Byte :=
  let x := s.ge[g]
  b1 g.val ++ flags [x.record.isSome, x.display.isSome, x.testPos.isSome, x.limited] ++ b1 x.pointer.code
    ++ b1 ((x.resume.map PointerState.code).getD 0xFF) ++ i2 (x.display.getD 0) ++ b1 x.range.code
    ++ b1 ((x.record.map fun r => (s.ci.eff r.source).status.code).getD 0) ++ b2 x.target ++ b2 x.filtered ++ b2 x.pos
    ++ b2 (x.testPos.getD 0) ++ b1 x.restarts

/-- READ_GAUGES (R91). -/
def readGauges (p : List Byte) (s : State) : Answer :=
  if rangeGood 8 8 p then (s, .positive (b1 (u8 p 1) ++ (readItems 8 p).flatMap s.gaugeEntry))
  else refuse .badValue s

/-! ## Warnings (R104, R194) -/

/-- The entry of a warning in the list. -/
def State.warnEntry (s : State) (w : Fin 64) : List Byte :=
  let i := s.wm.inst[w]
  b1 w.val ++ b1 i.state.code ++ b1 (s.warnPriority w).code
    ++ flags [((s.wm.defs[w]).map (·.ackable)).getD false] ++ b4 ((i.act.map BitVec.toNat).getD 0)

/-- READ_WARNINGS (R104). -/
def readWarnings (p : List Byte) (s : State) : Answer :=
  if decide (u8 p 0 < 64) && within 1 16 (u8 p 1) then
    let es := (s.wm.list.drop (u8 p 0)).take (u8 p 1)
    (s, .positive (b1 s.wm.list.length ++ b1 s.wm.floor.code ++ b1 es.length ++ es.flatMap s.warnEntry))
  else refuse .badValue s

/-! ## Doors (R144, R145, R194) -/

/-- The reading field of a slot: not mapped is 3 (R189). -/
def Leaf.readingCode (l : Leaf) (slot : Fin 5) : Nat :=
  if (l.input slot).isSome then l.readings[slot].code else 3

/-- The entry of a leaf; of an unconfigured one only its number (R194). The closing timer's count stops at 65,535 as the
closing time does (R133, log 36). -/
def Leaf.entry (l : Leaf) (i : Nat) : List Byte :=
  match l.cfg with
  | some c =>
    b1 i ++ flags [true, l.lockFault, l.slow, l.cycleMark, l.travelT.isSome, l.lockT.isSome, l.closingT.isSome]
      ++ b1 c.doorway.val ++ b1 l.state.code ++ (List.finRange 5).flatMap (fun slot => b1 (l.readingCode slot))
      ++ b2 (min 65535 (l.closingT.getD 0 / 10))
      ++ flags [l.conds.notSecure, l.conds.released, l.conds.obstructed, l.conds.fault]
  | none => b1 i ++ List.replicate 11 0

/-- READ_DOORS (R144). -/
def readDoors (_ : List Byte) (s : State) : Answer :=
  (s, .positive (b1 (bit s.dm.doorsClear) ++ (List.finRange 4).flatMap (fun w => b1 (doorwayCode s.dm.doorway[w]))
    ++ (List.finRange 8).flatMap fun i => s.dm.leaves[i].entry i.val))

/-- The entry of a leaf's statistics. -/
def DoorStats.entry (d : DoorStats) (i : Nat) : List Byte :=
  b1 i ++ b4 d.cycles ++ b2 d.obstructions ++ b2 d.slow ++ b2 (d.mean.getD 0) ++ flags [d.mean.isSome]

/-- READ_DOOR_STATS (R145). -/
def readDoorStats (p : List Byte) (s : State) : Answer :=
  if rangeGood 8 8 p then
    (s, .positive (b1 (u8 p 1) ++ (readItems 8 p).flatMap fun i => s.dm.stats[i].entry i.val))
  else refuse .badValue s

/-! ## Faults (R162, R194) -/

/-- An item of a freeze frame. -/
def FreezeItem.bytes (x : FreezeItem) : List Byte := x.sel.bytes ++ b1 (bit x.value.isSome) ++ i4 (x.value.getD 0)

/-- The entry of a fault. -/
def State.faultBytes (s : State) (e : FaultEntry) : List Byte :=
  b2 (faultCode e.src) ++ b1 e.severity.code ++ b1 e.occurrence ++ b4 e.firstSeen ++ b4 e.lastSeen
    ++ b2 e.firstCycle ++ b2 e.lastCycle ++ b2 ((e.displaces.map faultCode).getD 0)
    ++ b1 (s.fm.tracker e.src).state.code ++ flags [e.displaces.isSome] ++ b1 e.frame.length
    ++ e.frame.flatMap FreezeItem.bytes

/-- READ_FAULTS (R162). -/
def readFaults (p : List Byte) (s : State) : Answer :=
  if decide (u8 p 0 < 32) && within 1 4 (u8 p 1) then
    let es := (s.fm.index.drop (u8 p 0)).take (u8 p 1)
    (s, .positive (b1 s.fm.index.length ++ s.fm.flagByte ++ b1 es.length ++ es.flatMap s.faultBytes))
  else refuse .badValue s

/-! ## A wire read raw (R186) -/

/-- READ_RAW (R186). -/
def readRaw (p : List Byte) (s : State) : Answer :=
  parsed (wired? (u8 p 0)) (fun ch =>
    let r := s.cu.lastResult[ch]
    (s, .positive (b1 ch.val
      ++ flags [r.isSome, (r.map (·.saturated)).getD false, s.cu.lastRef.isSome]
      ++ b2 ((r.map (·.count)).getD 0) ++ b1 ((r.map (·.level.code)).getD 0) ++ b1 ((r.map (·.gate.val)).getD 0)
      ++ b1 ((r.map (·.origin.code)).getD 0) ++ b2 (s.cu.lastRef.getD 0)))) s

end Sys2Proof.Machine
end

