-- ==== Sys2Proof/Machine/Start.lean ====
section
/-! DEFINITION. START, STOP and RESTART at the State Controller: the ten checks of R18 in their order, what an accepted
START fixes, and the state it enters. -/

namespace Sys2Proof.Machine

/-- The first item of a range that fails a check, named by class and number. -/
def firstFailing (n : Nat) (cls : ItemClass) (fails : Fin n → Bool) : Option (ItemClass × Nat) :=
  ((List.finRange n).find? fails).map fun i => (cls, i.val)

/-- A list of numbers strictly ascends. -/
def ascends : List Int → Bool
  | a :: b :: rest => decide (a < b) && ascends (b :: rest)
  | _ => true

/-- Check 1: the scan list holds at least one entry. -/
def State.startCheck1 (s : State) : Option (ItemClass × Nat) := if s.cu.scan.isEmpty then some (.scan, 0) else none

/-- Check 2: every scan entry names a wired channel whose kind is not OFF. -/
def State.startCheck2 (s : State) : Option (ItemClass × Nat) :=
  (s.cu.scan.findIdx? fun ch => decide (s.ci.wired[ch].cfg.kind = .off)).map fun i => (.scan, i)

/-- Check 3: every wired channel whose kind is not OFF appears in the scan list. -/
def State.startCheck3 (s : State) : Option (ItemClass × Nat) :=
  firstFailing 24 .channel fun ch => decide (s.ci.wired[ch].cfg.kind ≠ .off) && decide (ch ∉ s.cu.scan)

/-- Check 4: the thresholds of every non-OFF wired channel strictly ascend. -/
def State.startCheck4 (s : State) : Option (ItemClass × Nat) :=
  firstFailing 24 .channel fun ch =>
    decide (s.ci.wired[ch].cfg.kind ≠ .off) && !ascends (s.ci.wired[ch].cfg.thresholds.map Int.ofNat)

/-- A wired channel's partner names it in turn and is of the same kind (check 5). -/
def State.pairGood (s : State) (ch : Fin 24) : Bool :=
  match s.ci.wired[ch].cfg.partner with
  | some p => decide (s.ci.wired[p].cfg.partner = some ch) && decide (s.ci.wired[p].cfg.kind = s.ci.wired[ch].cfg.kind)
  | none => true

/-- Check 5: every partner pair is mutual and of one kind; the lower of the two is named. R18 does not say at which item a pair
that is named from one side only fails: here at the channel that names its partner, so that W5 naming W1 fails at item 5
(DESIGN CHOICE, log 37). -/
def State.startCheck5 (s : State) : Option (ItemClass × Nat) :=
  ((List.finRange 24).find? fun ch => !s.pairGood ch).map fun ch =>
    (.channel, min ch.val (match s.ci.wired[ch].cfg.partner with
      | some p => p.val
      | none => ch.val))

/-- A channel number names a network channel of kind NETWORK. -/
def Interp.isNetwork (c : Interp) (ch : Fin 40) : Bool :=
  match asNet ch with
  | some n => c.net[n].cfg.network
  | none => false

/-- Check 6: a motion channel of kind NETWORK is designated, and its stop threshold is below its move threshold. -/
def State.startCheck6 (s : State) : Option (ItemClass × Nat) :=
  match s.ci.motionChannel with
  | some ch => if s.ci.isNetwork ch ∧ s.ci.stopThr < s.ci.moveThr then none else some (.motion, 0)
  | none => some (.motion, 0)

/-- A curve of 0 or 2 to 12 points whose x values strictly ascend. -/
def curveGood (c : List CurvePoint) : Bool :=
  decide (c.length ≠ 1) && decide (c.length ≤ 12) && ascends (c.map (·.x))

/-- Check 7: every configured gauge has a source of kind SENDER or NETWORK, v_min < v_max, rest ≤ span, and a good
curve. -/
def State.startCheck7 (s : State) : Option (ItemClass × Nat) :=
  firstFailing 8 .gauge fun g =>
    match s.ge[g].record with
    | some r => !(s.ci.hasValue r.source && decide (r.vMin < r.vMax) && decide (r.rest ≤ r.span)
        && curveGood s.ge[g].curve)
    | none => false

/-- The leaves of a set are all configured. -/
def State.leavesConfigured (s : State) (leaves : BitVec 8) : Bool :=
  (List.finRange 8).all fun l => !inLeafSet leaves l || s.dm.leaves[l].cfg.isSome

/-- The operands of a condition are usable (R94). -/
def State.condUsable (s : State) : Condition → Bool
  | .switchActive ch => s.ci.hasReading ch
  | .valueBelow g _ _ | .valueAbove g _ _ => s.ge[g].record.isSome
  | .channelFault ch =>
    match asWired ch with
    | some w => decide (s.ci.wired[w].cfg.kind ≠ .off)
    | none => false
  | .channelLost ch => s.ci.isNetwork ch
  | .doorNotSecure ls | .doorReleased ls | .doorObstructed ls | .doorFault ls => s.leavesConfigured ls
  | .supplyLow | .supplyHigh | .motionUnknown => true

/-- A definition is usable (R94). -/
def State.warnUsable (s : State) (d : WarnDef) : Bool :=
  s.condUsable d.cond &&
    (match d.lamp with
      | some l => s.ao.used[l]
      | none => true) &&
    (match d.pattern with
      | some p => s.ao.patterns[p].isSome
      | none => true)

/-- Check 8: every configured warning definition is usable. -/
def State.startCheck8 (s : State) : Option (ItemClass × Nat) :=
  firstFailing 64 .warning fun w =>
    match s.wm.defs[w] with
    | some d => !s.warnUsable d
    | none => false

/-- Check 9: the CLOSED input of every configured leaf names a channel of kind SWITCH or NETWORK. -/
def State.startCheck9 (s : State) : Option (ItemClass × Nat) :=
  firstFailing 8 .leaf fun l =>
    match s.dm.leaves[l].cfg with
    | some c =>
      match c.inputs[slotClosed] with
      | some i => !s.ci.hasReading i.ch
      | none => true
    | none => false

/-- A freeze selector names a configured item (R154). -/
def State.selectorGood (s : State) : Selector → Bool
  | .gaugeValue g => s.ge[g].record.isSome
  | .channelValue ch => s.ci.hasValue ch
  | .supply | .speed | .doorWord => true

/-- Check 10: every freeze set item names a configured item. -/
def State.startCheck10 (s : State) : Option (ItemClass × Nat) :=
  (s.fm.freeze.findIdx? fun x => !s.selectorGood x).map fun i => (.freeze, i)

/-- The judgement of the configuration (R18): the first failing item, or none. -/
def State.judgement (s : State) : Option (ItemClass × Nat) :=
  [s.startCheck1, s.startCheck2, s.startCheck3, s.startCheck4, s.startCheck5, s.startCheck6, s.startCheck7,
    s.startCheck8, s.startCheck9, s.startCheck10].findSome? id

/-- The wired channel that a slot of a leaf configuration names. -/
def LeafCfg.wiredAt (c : LeafCfg) (slot : Fin 5) : Option (Fin 24) := (c.inputs[slot]).bind fun i => asWired i.ch

/-- A channel is in the watch set (R27). -/
def State.inWatchSet (s : State) (ch : Fin 24) : Bool :=
  s.ci.wired[ch].cfg.watched && (List.finRange 8).any fun l =>
    match s.dm.leaves[l].cfg with
    | some c => c.watched && (decide (c.wiredAt slotClosed = some ch) || decide (c.wiredAt slotRelease = some ch))
    | none => false

/-- Which slots of a leaf count as mapped until the next START (R127). -/
def State.countedSlots (s : State) (l : Leaf) : Vector Bool 5 :=
  tab fun slot =>
    match l.cfg.bind fun c => c.inputs[slot] with
    | some i => decide (slot = slotClosed) || s.ci.hasReading i.ch
    | none => true

/-- What an accepted START fixes: the watch set and the mapped slots. -/
def fixConfiguration (s : State) : State :=
  let s := s.modDm fun d => { d with leaves := vmap (fun l : Leaf => { l with counted := s.countedSlots l }) d.leaves }
  s.modSc fun c => { c with watchSet := (List.finRange 24).filter s.inWatchSet }

/-- START (R18, R19). -/
def start (s : State) : Answer :=
  match s.judgement with
  | some (item, n) => (s, .badConfig item n)
  | none =>
    let s := fixConfiguration s
    done (if s.sc.ignOn then enterRun s else enterParked s)

/-- STOP (R24). -/
def stop (s : State) : Answer :=
  if s.sc.opState = .parked then done (stopFromParked s)
  else if s.ci.motion ≠ .standstill then refuse .notStandstill s
  else done (stopFromRun s)

/-- RESTART (R25): the soft restart begins when the reply has been sent. -/
def restart (s : State) : Answer := done (s.modLi fun l => { l with restartPending := true })

end Sys2Proof.Machine
end

