-- ==== Sys2Proof/Machine/Requests.lean ====
section
/-! DEFINITION. The running and service requests, the table of kinds with their lengths and states (R17, R190), and how a
completed request frame is answered (R4 to R7). -/

namespace Sys2Proof.Machine

/-! ## Running requests -/

/-- The pairs of a POST_NETWORK payload. -/
def networkPairs (p : List Byte) : List (Nat × Int) :=
  (List.range (p.length / 3)).map fun i => (u8 p (3 * i), s16 p (3 * i + 1))

/-- POST_NETWORK (R64). -/
def postRequest (p : List Byte) (s : State) : Answer :=
  let pairs := postedPairs s.ci (networkPairs p)
  (postNetwork pairs s, .positive (b1 pairs.length))

/-- REQUEST_CONVERSION (R37). -/
def requestConversion (p : List Byte) (s : State) : Answer :=
  parsed (wired? (u8 p 0)) (fun ch =>
    if s.ci.wired[ch].cfg.kind = .off then refuse .badValue s
    else
      let merged := s.cu.queue.any fun e => decide (e.ch = ch)
      (queuePrio ch true s, .positive (b1 ReplyOutcome.accepted.code ++ flags [merged]))) s

/-- The positive reply of an ACKNOWLEDGE that found a warning (R192). -/
def acknowledged (w : Fin 64) (d : WarnDef) (s : State) : Answer :=
  let (t, o) := acknowledge w d s
  (t, .positive (b1 o.code ++ b1 w.val ++ b1 t.wm.inst[w].state.code))

/-- ACKNOWLEDGE (R105, R106); with NONE the warning is 0xFF and the state field zero (log 22). -/
def acknowledgeRequest (p : List Byte) (s : State) : Answer :=
  if p.length = 0 then
    match s.wm.list.find? s.isCandidate with
    | some w =>
      match s.wm.defs[w] with
      | some d => acknowledged w d s
      | none => (s, .positive (b1 ReplyOutcome.none.code ++ b1 0xFF ++ b1 0))
    | none => (s, .positive (b1 ReplyOutcome.none.code ++ b1 0xFF ++ b1 0))
  else
    parsed (item? 64 (u8 p 0)) (fun w =>
      match s.wm.defs[w] with
      | some d => acknowledged w d s
      | none => refuse .badValue s) s

/-- SET_CHIME_FLOOR (R108). -/
def setChimeFloor (p : List Byte) (s : State) : Answer :=
  parsed (Priority.ofCode (u8 p 0)) (fun floor => done (takeFloor (s.modWm fun m => { m with floor }))) s

/-- CLEAR_LIMITS (R68, R90). -/
def clearLimits (_ : List Byte) (s : State) : Answer :=
  let s := s.modCi fun c =>
    { c with wired := vmap (fun w : Wired => { w with limited := false }) c.wired,
             net := vmap (fun n : Net => { n with limited := false }) c.net }
  done (s.modGe (vmap fun x : Gauge => { x with limited := false }))

/-! ## The session (R180 to R184) -/

/-- ENTER_SERVICE (R180). -/
def enterService (_ : List Byte) (s : State) : Answer :=
  if s.ci.motion ≠ .standstill then refuse .notStandstill s
  else if s.sc.service then (s, .outcome .alreadyOn)
  else (report .serviceEntered 0 none (s.modSc fun c => { c with service := true }), .outcome .entered)

/-- LEAVE_SERVICE (R182). -/
def leaveService (_ : List Byte) (s : State) : Answer :=
  if s.sc.service then (endSession .leaveService s, .outcome .left) else (s, .outcome .notActive)

/-- A taken GAUGE_TEST (R88). -/
def startGaugeTest (g : Fin 8) (pos : Nat) (s : State) : State :=
  let t := s.modGauge g fun x => { x with testPos := some pos, testDue := true }
  match s.ge[g].pointer with
  | .tracking => setPointer g .test t
  | .test => t
  | _ => s

/-- GAUGE_TEST (R88). -/
def gaugeTest (p : List Byte) (s : State) : Answer :=
  parsed (item? 8 (u8 p 0)) (fun g =>
    parsed (s.ge[g].record) (fun r =>
      if r.span < u16 p 1 then refuse .badValue s
      else match s.ge[g].pointer with
        | .homing | .sweep | .hold => refuse .busy s
        | _ => done (startGaugeTest g (u16 p 1) s)) s) s

/-- The lamp set of LAMP_TEST: bit i of the 24-bit field is lamp i. -/
def lampSet (p : List Byte) : Nat := u16 p 0 + 65536 * u8 p 2

/-- LAMP_TEST (R122). -/
def lampTest (p : List Byte) (s : State) : Answer :=
  parsed (check (decide (lampSet p ≠ 0)) (boolOf (u8 p 3))) (fun on =>
    done (refreshLamps (s.modAo fun a =>
      { a with overrides := tab fun l => if (lampSet p).testBit l.val then some on else a.overrides[l] }))) s

/-- CHIME_TEST (R123). -/
def chimeTest (p : List Byte) (s : State) : Answer :=
  parsed (item? 8 (u8 p 0)) (fun n =>
    if (s.ao.patterns[n]).isNone then refuse .badValue s
    else done (deriveChime (s.modAo fun a => { a with chimeTest := some n, testGen := a.testGen + 1 }))) s

/-- END_TESTS (R184). -/
def endTestsRequest (_ : List Byte) (s : State) : Answer :=
  if s.testsInForce then (endTests .endTests s, .outcome .ended) else (s, .outcome .noneRunning)

/-- CLEAR_FAULTS (R160). -/
def clearFaultsRequest (_ : List Byte) (s : State) : Answer :=
  if s.fm.clearPending then refuse .busy s else (clearFaults s, .outcome .accepted)

/-- RESET_DOOR_STATS (R143). -/
def resetDoorStats (p : List Byte) (s : State) : Answer :=
  parsed (item? 8 (u8 p 0)) (fun i =>
    done (queueDoorStats (s.modDm fun d => { d with stats := vset d.stats i .zero }))) s

/-- WRITE_VEHICLE_ID (R175). -/
def writeVehicleId (p : List Byte) (s : State) : Answer :=
  if p.length ≠ 17 then refuse .badLength s
  else if !p.all fun b => within 0x20 0x7E b.toNat then refuse .badValue s
  else if s.jc.row ≠ .blank then refuse .locked s
  else (queueRecord (.vid p) (s.modJc fun j => { j with row := .programming }), .outcome .accepted)

/-! ## The kinds (R17, R190) -/

/-- A request kind: its code, the payload lengths of R190, the states of R17, whether it is service-only (R181), and what
its owner does. -/
structure Request where
  code    : Nat
  lengths : Nat → Bool
  states  : OpState → Bool
  service : Bool
  act     : List Byte → State → Answer

/-- Every operating state. -/
def inAny : OpState → Bool := fun _ => true
/-- Every state but STARTING. -/
def notStarting (o : OpState) : Bool := decide (o ≠ .starting)
/-- CONFIG only. -/
def inConfig (o : OpState) : Bool := decide (o = .config)
/-- RUN only. -/
def onlyRun (o : OpState) : Bool := decide (o = .run)
/-- RUN and PARKED. -/
def inRunOrParked (o : OpState) : Bool := decide (o = .run) || decide (o = .parked)
/-- CONFIG and RUN. -/
def inConfigOrRun (o : OpState) : Bool := decide (o = .config) || decide (o = .run)

/-- One of some lengths. -/
def lengthIn (ls : List Nat) : Nat → Bool := fun n => decide (n ∈ ls)

/-- A configuration request. -/
def configRequest (code : Nat) (lengths : Nat → Bool) (act : List Byte → State → Answer) : Request :=
  { code, lengths, states := inConfig, service := false, act }

/-- A running request accepted in RUN only. -/
def runRequest (code : Nat) (lengths : Nat → Bool) (act : List Byte → State → Answer) : Request :=
  { code, lengths, states := onlyRun, service := false, act }

/-- A service-only request. -/
def serviceRequest (code : Nat) (lengths : Nat → Bool) (act : List Byte → State → Answer) : Request :=
  { code, lengths, states := inConfigOrRun, service := true, act }

def reqIdentify : Request := { code := 0x01, lengths := lengthIn [0], states := inAny, service := false, act := identify }
def reqGetState : Request := { code := 0x02, lengths := lengthIn [0], states := inAny, service := false, act := getState }
def reqFetchReports : Request :=
  { code := 0x03, lengths := lengthIn [1], states := notStarting, service := false, act := fetchReports }
def reqRestart : Request :=
  { code := 0x04, lengths := lengthIn [0], states := notStarting, service := false, act := fun _ => restart }
def reqStart : Request := configRequest 0x08 (lengthIn [0]) fun _ => start
def reqStop : Request :=
  { code := 0x09, lengths := lengthIn [0], states := inRunOrParked, service := false, act := fun _ => stop }
def reqSetReference : Request := configRequest 0x10 (lengthIn [6]) setReference
def reqSetChannel : Request := configRequest 0x11 (within 2 37) setChannel
def reqSetScan : Request := configRequest 0x12 (within 0 40) setScan
def reqSetMotion : Request := configRequest 0x13 (lengthIn [3]) setMotion
def reqSetGauge : Request := configRequest 0x14 (lengthIn [1, 13]) setGauge
def reqSetCurve : Request :=
  configRequest 0x15 (fun n => decide (n = 1) || (within 13 73 n && decide (n % 6 = 1))) setCurve
def reqSetWarning : Request := configRequest 0x16 (lengthIn [1, 12, 13, 17]) setWarning
def reqSetLamp : Request := configRequest 0x17 (lengthIn [2]) setLamp
def reqSetPattern : Request := configRequest 0x18 (lengthIn [1, 4]) setPattern
def reqSetLeaf : Request := configRequest 0x19 (lengthIn [1, 16]) setLeaf
def reqSetFreeze : Request := configRequest 0x1A (lengthIn [0, 2, 4, 6, 8]) setFreeze
def reqPostNetwork : Request := runRequest 0x20 (fun n => within 3 48 n && decide (n % 3 = 0)) postRequest
def reqRequestConversion : Request := runRequest 0x21 (lengthIn [1]) requestConversion
def reqReadChannels : Request := runRequest 0x22 (lengthIn [2]) readChannels
def reqReadGauges : Request := runRequest 0x23 (lengthIn [2]) readGauges
def reqReadWarnings : Request := runRequest 0x24 (lengthIn [2]) readWarnings
def reqReadDoors : Request := runRequest 0x25 (lengthIn [0]) readDoors
def reqReadFaults : Request :=
  { code := 0x26, lengths := lengthIn [2], states := inConfigOrRun, service := false, act := readFaults }
def reqReadDoorStats : Request :=
  { code := 0x27, lengths := lengthIn [2], states := inConfigOrRun, service := false, act := readDoorStats }
def reqAcknowledge : Request := runRequest 0x28 (lengthIn [0, 1]) acknowledgeRequest
def reqSetChimeFloor : Request := runRequest 0x29 (lengthIn [1]) setChimeFloor
def reqClearLimits : Request := runRequest 0x2A (lengthIn [0]) clearLimits
def reqEnterService : Request := runRequest 0x30 (lengthIn [0]) enterService
def reqLeaveService : Request := runRequest 0x31 (lengthIn [0]) leaveService
def reqGaugeTest : Request := serviceRequest 0x32 (lengthIn [3]) gaugeTest
def reqLampTest : Request := serviceRequest 0x33 (lengthIn [4]) lampTest
def reqChimeTest : Request := serviceRequest 0x34 (lengthIn [1]) chimeTest
def reqEndTests : Request := serviceRequest 0x35 (lengthIn [0]) endTestsRequest
def reqReadRaw : Request := serviceRequest 0x36 (lengthIn [1]) readRaw
def reqClearFaults : Request := serviceRequest 0x37 (lengthIn [0]) clearFaultsRequest
def reqResetDoorStats : Request := serviceRequest 0x38 (lengthIn [1]) resetDoorStats
def reqWriteVehicleId : Request := serviceRequest 0x39 (within 0 248) writeVehicleId

/-- Every defined request kind. -/
def allRequests : List Request :=
  [reqIdentify, reqGetState, reqFetchReports, reqRestart, reqStart, reqStop, reqSetReference, reqSetChannel,
    reqSetScan, reqSetMotion, reqSetGauge, reqSetCurve, reqSetWarning, reqSetLamp, reqSetPattern, reqSetLeaf,
    reqSetFreeze, reqPostNetwork, reqRequestConversion] ++
  [reqReadChannels, reqReadGauges, reqReadWarnings, reqReadDoors, reqReadFaults, reqReadDoorStats, reqAcknowledge,
    reqSetChimeFloor, reqClearLimits, reqEnterService, reqLeaveService, reqGaugeTest, reqLampTest, reqChimeTest,
    reqEndTests, reqReadRaw, reqClearFaults, reqResetDoorStats, reqWriteVehicleId]

/-! ## Answering (R4 to R7) -/

/-- Checks 2 to 4 of R6 and the owner's action: length, operating state, service mode, then the owner. -/
def Request.judge (q : Request) (p : List Byte) (s : State) : Answer :=
  if !q.lengths p.length then refuse .badLength s
  else if !q.states s.sc.opState then refuse .wrongState s
  else if q.service && !s.sc.service then refuse .notInService s
  else q.act p s

/-- A taken request is answered: the owner acts and the reply goes into the transmitter (R5, R7). -/
def Request.answer (q : Request) (tag : Byte) (p : List Byte) (s : State) : State :=
  let (t, r) := q.judge p s
  sendReply q.code tag r t

/-- A request frame of a kind with a good check value completes: taken while the transmitter is IDLE, else discarded
(R5). -/
def Request.serve (q : Request) (tag : Byte) (p : List Byte) (s : State) : State :=
  if s.taking then q.answer tag p s else s

/-- A completed frame is judged by its check value and kind (R4, R6). -/
def frameAnswer (kind tag : Byte) (p : List Byte) (good : Bool) (s : State) : State :=
  if !good then sendReply kind.toNat tag (.refused .badFrame) s
  else match allRequests.find? fun q => decide (q.code = kind.toNat) with
    | some q => q.answer tag p s
    | none => sendReply kind.toNat tag (.refused .unknownKind) s

/-- A whole frame has arrived, its characters from LENGTH to the second CHECK character (R2, R4, R5): the receiver is
HUNTING with an empty buffer, and the frame is taken or discarded. -/
def frameComplete (chars : List Byte) (s : State) : State :=
  let s := s.modLi fun l => { l with receiver := .hunting, buffer := [], gapMs := 0 }
  let n := u8 chars 0
  let counted := chars.take (n + 1)
  let good := decide (u16 chars (n + 1) = (crc16 counted).toNat)
  if s.taking then frameAnswer (chars.getD 1 0) (chars.getD 2 0) (counted.drop 3) good s else s

/-- The receiver abandons a partial frame (R1, R3). -/
def abandonFrame (s : State) : State := s.modLi fun l => { l with receiver := .hunting, buffer := [], gapMs := 0 }

/-- A character examined in HUNTING (R2). -/
def huntSync (b : Byte) (s : State) : State :=
  if b = syncByte then s.modLi fun l => { l with receiver := .assembling, buffer := [], gapMs := 0 } else s

/-- A character that joins the frame being assembled (R2). -/
def assemble (b : Byte) (s : State) : State :=
  let chars := s.li.buffer ++ [b]
  let n := u8 chars 0
  if n < 2 ∨ 250 < n then abandonFrame s
  else if chars.length = n + 3 then frameComplete chars s
  else s.modLi fun l => { l with buffer := chars, gapMs := 0 }

/-- A character arrives (R2, R3): a gap of more than 3 ms abandons the partial frame first. -/
def characterArrives (b : Byte) (s : State) : State :=
  match s.li.receiver with
  | .hunting => huntSync b s
  | .assembling => if 3 < s.li.gapMs then huntSync b (abandonFrame s) else assemble b s

end Sys2Proof.Machine
end

