-- ==== Sys2Proof/Machine/LinkCommands.lean ====
section
/-! DEFINITION. The meanings of the commands of the line and of the resets. A command whose event cannot occur in the
present state changes nothing (log 5). -/

namespace Sys2Proof.Machine

/-- The outcome of a command that acts where its event can occur, and changes nothing where it cannot (log 5). -/
def nextIf (p : Bool) (t s : State) : Host.Outcome State Fault Refusal := .next (if p then t else s)

/-- HARD_RESET (R14, R25, R178). -/
def execHardReset (lrateHigh : Bool) (s : State) : Host.Outcome State Fault Refusal :=
  .next (resetPart lrateHigh (s.jc.hardReset (decide (s.sc.opState = .starting))) s)

/-- A soft restart begins (R25): a RESTART has been answered and its reply sent. -/
def State.restartDue (s : State) : Bool := s.li.restartPending && decide (s.li.transmitter = .idle)

/-- SOFT_RESTART (R14, R25, R179; log 8). -/
def execSoftRestart (lrateHigh : Bool) (s : State) : Host.Outcome State Fault Refusal :=
  nextIf s.restartDue (resetPart lrateHigh s.jc.softRestart s) s

/-- The rebuild has run its time (R173, R179). -/
def State.rebuildDue (s : State) : Bool :=
  decide (s.sc.opState = .starting) && s.jc.finishing.isNone && decide (s.jc.rebuildMs = 0)

/-- REBUILD_COMPLETE (R26, R174). -/
def execRebuildComplete (s : State) : Host.Outcome State Fault Refusal := nextIf s.rebuildDue (rebuilt s) s

/-- LINE_FAULT (R1): ignored in HUNTING, the partial frame abandoned in ASSEMBLING. -/
def execLineFault (s : State) : Host.Outcome State Fault Refusal :=
  nextIf (decide (s.li.receiver = .assembling)) (abandonFrame s) s

/-- FRAME_GAP_TIMEOUT (R3). -/
def execFrameGapTimeout (s : State) : Host.Outcome State Fault Refusal :=
  nextIf (decide (s.li.receiver = .assembling) && decide (3 < s.li.gapMs)) (abandonFrame s) s

/-- The characters from LENGTH to the second CHECK character have the shape of a frame (R2). -/
def frameShape : List Byte → Bool
  | [] => false
  | len :: rest => decide (2 ≤ len.toNat) && decide (len.toNat ≤ 250) && decide (rest.length = len.toNat + 2)

/-- FRAME_COMPLETE (R2, R4, R5). -/
def execFrameComplete (chars : List Byte) (s : State) : Host.Outcome State Fault Refusal :=
  nextIf (frameShape chars) (frameComplete chars s) s

/-- REPLY_SENT (R5). -/
def execReplySent (s : State) : Host.Outcome State Fault Refusal :=
  .next (s.modLi fun l => { l with transmitter := .idle })

/-- CHARACTER_RECEIVED (R2, R3). -/
def execCharacterReceived (b : Byte) (s : State) : Host.Outcome State Fault Refusal := .next (characterArrives b s)

end Sys2Proof.Machine
end

