-- ==== Sys2Proof/Machine/Time.lean ====
section
/-! DEFINITION. The passing of one millisecond (R8; log 7): the trip clock and every timer that runs in the present
state. A timer that counts down stands at 0 when it is due; its expiry is a command of its own. -/

namespace Sys2Proof.Machine

/-- A running timer loses a millisecond. -/
def countDown (t : Option Nat) : Option Nat := t.map fun n => n - 1

/-- The LI: the trip clock (R8), and the gap timer in ASSEMBLING (R3). -/
def Link.tick (l : Link) : Link :=
  { l with tripClock := l.tripClock + 1, gapMs := if l.receiver = .assembling then l.gapMs + 1 else l.gapMs }

/-- The SC: the steadiness timer while the raw level disagrees (R16), and the remainder in RUN (R21). -/
def Controller.tick (c : Controller) : Controller :=
  { c with
    steadyMs := if c.ignRaw = c.ignOn then c.steadyMs else c.steadyMs + 1
    remainderMs := if c.opState = .run then c.remainderMs + 1 else c.remainderMs }

/-- The CU: the conversion in flight, in quarter milliseconds (R30), and the path's settle (R42). -/
def ConvUnit.tick (u : ConvUnit) : ConvUnit :=
  { u with
    elapsedQ := if u.inFlight.isSome then u.elapsedQ + 4 else u.elapsedQ
    settleMs := if u.path = .settling then u.settleMs + 1 else u.settleMs }

/-- A network channel's timers (R65). -/
def Net.tick (n : Net) : Net :=
  { n with freshT := countDown n.freshT, lostT := countDown n.lostT, initT := countDown n.initT }

/-- The CI, in RUN: network timers (R65) and standstill timer (R67). -/
def Interp.tick (c : Interp) : Interp := { c with net := vmap Net.tick c.net, standstillT := countDown c.standstillT }

/-- A gauge: its update timer while it is driven (R77). -/
def Gauge.tick (x : Gauge) : Gauge := if x.pointer.driven then { x with updateMs := x.updateMs + 1 } else x

/-- A warning instance, in RUN: delay and re-alert (R98, R102). -/
def WarnInst.tick (i : WarnInst) : WarnInst := { i with delayT := countDown i.delayT, alertT := countDown i.alertT }

/-- The AO: the generator's step in quarter milliseconds (R115), and the bulb check (R121). -/
def Alert.tick (a : Alert) : Alert :=
  { a with genQ := if a.genRunning then a.genQ + 4 else a.genQ, bulb := countDown a.bulb }

/-- A leaf, in RUN and SHUTDOWN (R131). -/
def Leaf.tick (l : Leaf) : Leaf :=
  { l with travelT := countDown l.travelT, lockT := countDown l.lockT, closingT := l.closingT.map (· + 1) }

/-- A tracker's confirm timer, in RUN and SHUTDOWN (R149). -/
def Tracker.tick (t : Tracker) : Tracker := { t with timer := countDown t.timer }

/-- The JC: the program in flight, the running erase (R165, R171), and in STARTING the rebuild (R173, R179). -/
def Journal.tick (j : Journal) (starting : Bool) : Journal :=
  { j with
    opMs := if j.programming || j.finishing.isSome then j.opMs + 1 else j.opMs
    reclaim := match j.reclaim, j.inFlight with
      | .erasing t ms, some .erase => .erasing t (min 120 (ms + 1))
      | r, _ => r
    rebuildMs := if starting && j.finishing.isNone then j.rebuildMs - 1 else j.rebuildMs }

/-- One millisecond in every block. -/
def tickAll (s : State) : State :=
  let run := decide s.inRun
  let live := decide s.live
  let s := (((s.modLi Link.tick).modCu ConvUnit.tick).modGe (vmap Gauge.tick)).modAo Alert.tick
  let s := s.modJc fun j => j.tick (decide (s.sc.opState = .starting))
  let s := if run then
      (s.modCi Interp.tick).modWm fun m => { m with inst := vmap WarnInst.tick m.inst }
    else s
  let s := if live then
      (s.modDm fun d => { d with leaves := vmap Leaf.tick d.leaves }).modFm fun f =>
        { f with trackers := vmap Tracker.tick f.trackers }
    else s
  s.modSc Controller.tick

end Sys2Proof.Machine
end

