-- ==== Sys2Proof/Machine/EventCommands.lean ====
section
/-! DEFINITION. The meanings of the pin, measurement, timer and array commands. An expiry acts when its timer runs and is
due; a command whose event cannot occur in the present state changes nothing (log 5, log 7). -/

namespace Sys2Proof.Machine

/-! ## Ignition and operating states -/

/-- IGN_CHANGE (R16): the steadiness timer restarts at every change of the raw level. -/
def execIgnChange (high : Bool) (s : State) : Host.Outcome State Fault Refusal :=
  nextIf (s.sc.ignRaw != high) (s.modSc fun c => { c with ignRaw := high, steadyMs := 0 }) s

/-- Ignition ON is confirmed now (R16). -/
def State.ignOnDue (s : State) : Bool := s.sc.ignRaw && !s.sc.ignOn && decide (50 ≤ s.sc.steadyMs)

/-- IGNITION_ON_CONFIRMED (R16, R29). -/
def execIgnitionOnConfirmed (s : State) : Host.Outcome State Fault Refusal := nextIf s.ignOnDue (ignitionOn s) s

/-- Ignition OFF is confirmed now (R16). -/
def State.ignOffDue (s : State) : Bool := !s.sc.ignRaw && s.sc.ignOn && decide (500 ≤ s.sc.steadyMs)

/-- IGNITION_OFF_CONFIRMED (R16, R22). -/
def execIgnitionOffConfirmed (s : State) : Host.Outcome State Fault Refusal := nextIf s.ignOffDue (ignitionOff s) s

/-- SHUTDOWN_COMPLETE (R23; log 8). -/
def execShutdownComplete (s : State) : Host.Outcome State Fault Refusal :=
  nextIf (decide (s.sc.opState = .shutdown) && s.shutdownDone) (completeShutdown s) s

/-- OPERATING_SECOND (R21). -/
def execOperatingSecond (s : State) : Host.Outcome State Fault Refusal :=
  nextIf (decide s.inRun && decide (1000 ≤ s.sc.remainderMs)) (operatingSecond s) s

/-- WATCH_SETTLE_END (R28). -/
def execWatchSettleEnd (s : State) : Host.Outcome State Fault Refusal :=
  nextIf (decide (s.sc.opState = .parked) && decide (s.sc.watch = .settling) && decide (20 ≤ s.cu.settleMs))
    (watchSettled s) s

/-- WATCH_QUIET (R28; log 8). -/
def execWatchQuiet (s : State) : Host.Outcome State Fault Refusal :=
  nextIf (decide (s.sc.opState = .parked) && decide (s.sc.watch = .draining) && s.jc.drained) (watchQuiet s) s

/-! ## Conversion -/

/-- COMPARATOR_EVENT (R38, R39). -/
def execComparatorEvent (ch : Fin 24) (ohms : Nat) (s : State) : Host.Outcome State Fault Refusal :=
  .next (loopChanges ch ohms s)

/-- PATH_READY (R42): the settle of a RUN entry ends and the first REFERENCE starts. -/
def execPathReady (s : State) : Host.Outcome State Fault Refusal :=
  nextIf (decide s.live && decide (s.cu.path = .settling) && decide (20 ≤ s.cu.settleMs))
    (startElement 0 (s.modCu fun u => { u with path := .ready })) s

/-- GATE_OPEN (R30): a settle of 0.25 ms ends and the gate opens. -/
def execGateOpen (s : State) : Host.Outcome State Fault Refusal :=
  match s.cu.inFlight with
  | some c =>
    nextIf (decide (c.phase = .settle) && decide (1 ≤ s.cu.elapsedQ))
      (s.modCu fun u => { u with inFlight := some { c with phase := .gate }, elapsedQ := u.elapsedQ - 1 }) s
  | none => .next s

/-- CONVERSION_COMPLETE (R30 to R32, R35, R40): the gate closes after its window. -/
def execConversionComplete (periods pin bias : Nat) (s : State) : Host.Outcome State Fault Refusal :=
  match s.cu.inFlight with
  | some c =>
    nextIf (decide (c.phase = .gate) && decide (gateWindowQ c.gate ≤ s.cu.elapsedQ))
      (afterConversion c.origin (s.cu.elapsedQ - gateWindowQ c.gate)
        (completeConversion c (c.result periods pin bias) s)) s
  | none => .next s

/-! ## Network and motion timers (R65, R67) -/

/-- FRESHNESS_EXPIRY. -/
def execFreshnessExpiry (n : Fin 16) (s : State) : Host.Outcome State Fault Refusal :=
  nextIf (decide s.inRun && decide (s.ci.net[n].status = .valid) && decide (s.ci.net[n].freshT = some 0))
    (netExpired n Net.stale s) s

/-- LOST_TIMER_EXPIRY. -/
def execLostTimerExpiry (n : Fin 16) (s : State) : Host.Outcome State Fault Refusal :=
  nextIf (decide s.inRun && decide (s.ci.net[n].status = .held) && decide (s.ci.net[n].lostT = some 0))
    (netExpired n Net.lose s) s

/-- INITIAL_TIMER_EXPIRY. -/
def execInitialTimerExpiry (n : Fin 16) (s : State) : Host.Outcome State Fault Refusal :=
  nextIf (decide s.inRun && decide (s.ci.net[n].status = .init) && decide (s.ci.net[n].initT = some 0))
    (netExpired n Net.lose s) s

/-- STANDSTILL_TIMER_EXPIRY. -/
def execStandstillTimerExpiry (s : State) : Host.Outcome State Fault Refusal :=
  nextIf (decide s.inRun && decide (s.ci.standstillT = some 0)) (standstillExpired s) s

/-! ## Outputs -/

/-- GAUGE_UPDATE (R77): every 20 ms while the gauge is driven. -/
def execGaugeUpdate (g : Fin 8) (s : State) : Host.Outcome State Fault Refusal :=
  match s.ge[g].record with
  | some r =>
    nextIf (s.ge[g].pointer.driven && decide (20 ≤ s.ge[g].updateMs))
      (pointerUpdate g r (s.modGauge g fun x => { x with updateMs := x.updateMs - 20 })) s
  | none => .next s

/-- DELAY_EXPIRY (R98). -/
def execDelayExpiry (w : Fin 64) (s : State) : Host.Outcome State Fault Refusal :=
  nextIf (decide s.inRun && decide (s.wm.inst[w].state = .delaying) && decide (s.wm.inst[w].delayT = some 0))
    (enterActive w s) s

/-- RE_ALERT (R102). -/
def execReAlert (w : Fin 64) (s : State) : Host.Outcome State Fault Refusal :=
  nextIf (decide s.inRun && decide (s.wm.inst[w].state = .acked) && decide (s.wm.inst[w].alertT = some 0))
    (enterActive w s) s

/-- ENVELOPE_STEP (R115): every 62.5 ms, 250 quarter milliseconds, while the generator runs. -/
def execEnvelopeStep (s : State) : Host.Outcome State Fault Refusal :=
  nextIf (s.ao.genRunning && decide (250 ≤ s.ao.genQ)) (generatorStep (s.ao.genQ - 250) s) s

/-- BULB_CHECK_END (R121). -/
def execBulbCheckEnd (s : State) : Host.Outcome State Fault Refusal :=
  nextIf (decide (s.ao.bulb = some 0)) (refreshLamps (s.modAo fun a => { a with bulb := none })) s

/-! ## Doors and faults -/

/-- TRAVEL_TIMER_EXPIRY (R130, R131). -/
def execTravelTimerExpiry (leaf : Fin 8) (s : State) : Host.Outcome State Fault Refusal :=
  nextIf (decide s.live && decide (s.dm.leaves[leaf].travelT = some 0)) (travelExpired leaf s) s

/-- LOCK_TIMER_EXPIRY (R130, R131). -/
def execLockTimerExpiry (leaf : Fin 8) (s : State) : Host.Outcome State Fault Refusal :=
  nextIf (decide s.live && decide (s.dm.leaves[leaf].lockT = some 0)) (lockExpired leaf s) s

/-- CONFIRM_TIMER_EXPIRY (R149). -/
def execConfirmTimerExpiry (src : FaultSource) (s : State) : Host.Outcome State Fault Refusal :=
  nextIf (decide s.live && decide (s.fm.tracker src = { state := .pending, timer := some 0 }))
    (confirmExpired src s) s

/-! ## The array -/

/-- The array is free after an operation. -/
def freeArray (s : State) : State := s.modJc fun j => { j with inFlight := none, opMs := 0 }

/-- A program has run its time (R165). -/
def Journal.programDue (j : Journal) (op : ArrayOp) : Bool := decide (op.ms ≤ j.opMs)

/-- A record program or copy has completed (R168): the slot is written, the FM told, the next operation chosen. -/
def recordDone (op : ArrayOp) (s : State) : State :=
  let s := freeArray (s.modJc (·.finish op))
  jcChoose (match op with
    | .program r => recordProgrammed r s
    | _ => s)

/-- RECORD_PROGRAM_COMPLETE (R168, R170); within a soft restart the completion is handed to no block (R179). -/
def execRecordProgramComplete (s : State) : Host.Outcome State Fault Refusal :=
  match s.jc.finishing, s.jc.inFlight with
  | some (.program r), _ => nextIf (s.jc.programDue (.program r)) (s.modJc (·.finishRestart (.program r))) s
  | some (.copy r), _ => nextIf (s.jc.programDue (.copy r)) (s.modJc (·.finishRestart (.copy r))) s
  | none, some (.program r) => nextIf (s.jc.programDue (.program r)) (recordDone (.program r) s) s
  | none, some (.copy r) => nextIf (s.jc.programDue (.copy r)) (recordDone (.copy r) s) s
  | _, _ => .next s

/-- A header program has completed (R169): the reclaim may start. -/
def headerDone (x : Fin 4) (s : State) : State :=
  jcChoose ((freeArray (s.modJc (·.finish (.header x)))).modJc (·.startReclaim))

/-- HEADER_PROGRAM_COMPLETE (R169, R179). -/
def execHeaderProgramComplete (s : State) : Host.Outcome State Fault Refusal :=
  match s.jc.finishing, s.jc.inFlight with
  | some (.header x), _ => nextIf (s.jc.programDue (.header x)) (s.modJc (·.finishRestart (.header x))) s
  | none, some (.header x) => nextIf (s.jc.programDue (.header x)) (headerDone x s) s
  | _, _ => .next s

/-- The erase of the tail has completed (R171). -/
def eraseDone (tail : Fin 4) (s : State) : State :=
  let s := (freeArray s).modJc fun j =>
    { j with sectors := vset j.sectors tail .erased, reclaim := .idle }
  jcChoose (report .reclaimDone 0 (val tail.val) s)

/-- ERASE_COMPLETE (R171). -/
def execEraseComplete (s : State) : Host.Outcome State Fault Refusal :=
  match s.jc.inFlight, s.jc.reclaim with
  | some .erase, .erasing tail ms => nextIf (decide (120 ≤ ms)) (eraseDone tail s) s
  | _, _ => .next s

/-- The row program has completed (R175): the identity goes to the LI. -/
def rowDone (seq : Nat) (chars : List Byte) (s : State) : State :=
  let s := freeArray (s.modJc (·.finish (.row seq chars)))
  jcChoose (report .vehicleIdWritten 0 none (s.modLi fun l => { l with vehicleId := some chars }))

/-- ROW_PROGRAM_COMPLETE (R175, R179). -/
def execRowProgramComplete (s : State) : Host.Outcome State Fault Refusal :=
  match s.jc.finishing, s.jc.inFlight with
  | some (.row seq chars), _ => nextIf (s.jc.programDue (.row seq chars)) (s.modJc (·.finishRestart (.row seq chars))) s
  | none, some (.row seq chars) => nextIf (s.jc.programDue (.row seq chars)) (rowDone seq chars s) s
  | _, _ => .next s

/-! ## Time -/

/-- TRIP_CLOCK_TICK (R8; log 7). -/
def execTripClockTick (s : State) : Host.Outcome State Fault Refusal := .next (tickAll s)

end Sys2Proof.Machine
end

