-- ==== Sys2Proof/Machine/RequestCommands.lean ====
section
/-! DEFINITION. The meanings of the 38 request commands: a completed frame of the kind, with a good check value, is taken and
answered, or discarded (R4 to R7; log 9). -/

namespace Sys2Proof.Machine

/-- IDENTIFY (R12). -/
def execIdentify (tag : Byte) (p : List Byte) (s : State) : Host.Outcome State Fault Refusal :=
  .next (reqIdentify.serve tag p s)

/-- GET_STATE (R13). -/
def execGetState (tag : Byte) (p : List Byte) (s : State) : Host.Outcome State Fault Refusal :=
  .next (reqGetState.serve tag p s)

/-- FETCH_REPORTS (R11). -/
def execFetchReports (tag : Byte) (p : List Byte) (s : State) : Host.Outcome State Fault Refusal :=
  .next (reqFetchReports.serve tag p s)

/-- RESTART (R25). -/
def execRestart (tag : Byte) (p : List Byte) (s : State) : Host.Outcome State Fault Refusal :=
  .next (reqRestart.serve tag p s)

/-- START (R18, R19). -/
def execStart (tag : Byte) (p : List Byte) (s : State) : Host.Outcome State Fault Refusal :=
  .next (reqStart.serve tag p s)

/-- STOP (R24). -/
def execStop (tag : Byte) (p : List Byte) (s : State) : Host.Outcome State Fault Refusal :=
  .next (reqStop.serve tag p s)

/-- SET_REFERENCE (R50). -/
def execSetReference (tag : Byte) (p : List Byte) (s : State) : Host.Outcome State Fault Refusal :=
  .next (reqSetReference.serve tag p s)

/-- SET_CHANNEL (R48, R49). -/
def execSetChannel (tag : Byte) (p : List Byte) (s : State) : Host.Outcome State Fault Refusal :=
  .next (reqSetChannel.serve tag p s)

/-- SET_SCAN (R34). -/
def execSetScan (tag : Byte) (p : List Byte) (s : State) : Host.Outcome State Fault Refusal :=
  .next (reqSetScan.serve tag p s)

/-- SET_MOTION (R66). -/
def execSetMotion (tag : Byte) (p : List Byte) (s : State) : Host.Outcome State Fault Refusal :=
  .next (reqSetMotion.serve tag p s)

/-- SET_GAUGE (R72). -/
def execSetGauge (tag : Byte) (p : List Byte) (s : State) : Host.Outcome State Fault Refusal :=
  .next (reqSetGauge.serve tag p s)

/-- SET_CURVE (R73). -/
def execSetCurve (tag : Byte) (p : List Byte) (s : State) : Host.Outcome State Fault Refusal :=
  .next (reqSetCurve.serve tag p s)

/-- SET_WARNING (R93). -/
def execSetWarning (tag : Byte) (p : List Byte) (s : State) : Host.Outcome State Fault Refusal :=
  .next (reqSetWarning.serve tag p s)

/-- SET_LAMP (R113). -/
def execSetLamp (tag : Byte) (p : List Byte) (s : State) : Host.Outcome State Fault Refusal :=
  .next (reqSetLamp.serve tag p s)

/-- SET_PATTERN (R114). -/
def execSetPattern (tag : Byte) (p : List Byte) (s : State) : Host.Outcome State Fault Refusal :=
  .next (reqSetPattern.serve tag p s)

/-- SET_LEAF (R126). -/
def execSetLeaf (tag : Byte) (p : List Byte) (s : State) : Host.Outcome State Fault Refusal :=
  .next (reqSetLeaf.serve tag p s)

/-- SET_FREEZE (R154). -/
def execSetFreeze (tag : Byte) (p : List Byte) (s : State) : Host.Outcome State Fault Refusal :=
  .next (reqSetFreeze.serve tag p s)

/-- POST_NETWORK (R64). -/
def execPostNetwork (tag : Byte) (p : List Byte) (s : State) : Host.Outcome State Fault Refusal :=
  .next (reqPostNetwork.serve tag p s)

/-- REQUEST_CONVERSION (R37). -/
def execRequestConversion (tag : Byte) (p : List Byte) (s : State) : Host.Outcome State Fault Refusal :=
  .next (reqRequestConversion.serve tag p s)

/-- READ_CHANNELS (R69). -/
def execReadChannels (tag : Byte) (p : List Byte) (s : State) : Host.Outcome State Fault Refusal :=
  .next (reqReadChannels.serve tag p s)

/-- READ_GAUGES (R91). -/
def execReadGauges (tag : Byte) (p : List Byte) (s : State) : Host.Outcome State Fault Refusal :=
  .next (reqReadGauges.serve tag p s)

/-- READ_WARNINGS (R104). -/
def execReadWarnings (tag : Byte) (p : List Byte) (s : State) : Host.Outcome State Fault Refusal :=
  .next (reqReadWarnings.serve tag p s)

/-- READ_DOORS (R144). -/
def execReadDoors (tag : Byte) (p : List Byte) (s : State) : Host.Outcome State Fault Refusal :=
  .next (reqReadDoors.serve tag p s)

/-- READ_FAULTS (R162). -/
def execReadFaults (tag : Byte) (p : List Byte) (s : State) : Host.Outcome State Fault Refusal :=
  .next (reqReadFaults.serve tag p s)

/-- READ_DOOR_STATS (R145). -/
def execReadDoorStats (tag : Byte) (p : List Byte) (s : State) : Host.Outcome State Fault Refusal :=
  .next (reqReadDoorStats.serve tag p s)

/-- ACKNOWLEDGE (R105, R106). -/
def execAcknowledge (tag : Byte) (p : List Byte) (s : State) : Host.Outcome State Fault Refusal :=
  .next (reqAcknowledge.serve tag p s)

/-- SET_CHIME_FLOOR (R108). -/
def execSetChimeFloor (tag : Byte) (p : List Byte) (s : State) : Host.Outcome State Fault Refusal :=
  .next (reqSetChimeFloor.serve tag p s)

/-- CLEAR_LIMITS (R68, R90). -/
def execClearLimits (tag : Byte) (p : List Byte) (s : State) : Host.Outcome State Fault Refusal :=
  .next (reqClearLimits.serve tag p s)

/-- ENTER_SERVICE (R180). -/
def execEnterService (tag : Byte) (p : List Byte) (s : State) : Host.Outcome State Fault Refusal :=
  .next (reqEnterService.serve tag p s)

/-- LEAVE_SERVICE (R182). -/
def execLeaveService (tag : Byte) (p : List Byte) (s : State) : Host.Outcome State Fault Refusal :=
  .next (reqLeaveService.serve tag p s)

/-- GAUGE_TEST (R88). -/
def execGaugeTest (tag : Byte) (p : List Byte) (s : State) : Host.Outcome State Fault Refusal :=
  .next (reqGaugeTest.serve tag p s)

/-- LAMP_TEST (R122). -/
def execLampTest (tag : Byte) (p : List Byte) (s : State) : Host.Outcome State Fault Refusal :=
  .next (reqLampTest.serve tag p s)

/-- CHIME_TEST (R123). -/
def execChimeTest (tag : Byte) (p : List Byte) (s : State) : Host.Outcome State Fault Refusal :=
  .next (reqChimeTest.serve tag p s)

/-- END_TESTS (R184). -/
def execEndTests (tag : Byte) (p : List Byte) (s : State) : Host.Outcome State Fault Refusal :=
  .next (reqEndTests.serve tag p s)

/-- READ_RAW (R186). -/
def execReadRaw (tag : Byte) (p : List Byte) (s : State) : Host.Outcome State Fault Refusal :=
  .next (reqReadRaw.serve tag p s)

/-- CLEAR_FAULTS (R160). -/
def execClearFaults (tag : Byte) (p : List Byte) (s : State) : Host.Outcome State Fault Refusal :=
  .next (reqClearFaults.serve tag p s)

/-- RESET_DOOR_STATS (R143). -/
def execResetDoorStats (tag : Byte) (p : List Byte) (s : State) : Host.Outcome State Fault Refusal :=
  .next (reqResetDoorStats.serve tag p s)

/-- WRITE_VEHICLE_ID (R175). -/
def execWriteVehicleId (tag : Byte) (p : List Byte) (s : State) : Host.Outcome State Fault Refusal :=
  .next (reqWriteVehicleId.serve tag p s)

end Sys2Proof.Machine
end

