-- ==== Sys2Proof/Machine/Dispatch.lean ====
section
/-! DEFINITION. One arm per command. -/

namespace Sys2Proof.Machine

def exec (i : Instr) (s : State) : Host.Outcome State Fault Refusal :=
  match i with
  | .hardReset lrateHigh => Sys2Proof.Machine.execHardReset lrateHigh s
  | .softRestart lrateHigh => Sys2Proof.Machine.execSoftRestart lrateHigh s
  | .rebuildComplete => Sys2Proof.Machine.execRebuildComplete s
  | .lineFault => Sys2Proof.Machine.execLineFault s
  | .frameGapTimeout => Sys2Proof.Machine.execFrameGapTimeout s
  | .frameComplete chars => Sys2Proof.Machine.execFrameComplete chars s
  | .replySent => Sys2Proof.Machine.execReplySent s
  | .identify tag payload => Sys2Proof.Machine.execIdentify tag payload s
  | .getState tag payload => Sys2Proof.Machine.execGetState tag payload s
  | .fetchReports tag payload => Sys2Proof.Machine.execFetchReports tag payload s
  | .restart tag payload => Sys2Proof.Machine.execRestart tag payload s
  | .start tag payload => Sys2Proof.Machine.execStart tag payload s
  | .stop tag payload => Sys2Proof.Machine.execStop tag payload s
  | .setReference tag payload => Sys2Proof.Machine.execSetReference tag payload s
  | .setChannel tag payload => Sys2Proof.Machine.execSetChannel tag payload s
  | .setScan tag payload => Sys2Proof.Machine.execSetScan tag payload s
  | .setMotion tag payload => Sys2Proof.Machine.execSetMotion tag payload s
  | .setGauge tag payload => Sys2Proof.Machine.execSetGauge tag payload s
  | .setCurve tag payload => Sys2Proof.Machine.execSetCurve tag payload s
  | .setWarning tag payload => Sys2Proof.Machine.execSetWarning tag payload s
  | .setLamp tag payload => Sys2Proof.Machine.execSetLamp tag payload s
  | .setPattern tag payload => Sys2Proof.Machine.execSetPattern tag payload s
  | .setLeaf tag payload => Sys2Proof.Machine.execSetLeaf tag payload s
  | .setFreeze tag payload => Sys2Proof.Machine.execSetFreeze tag payload s
  | .postNetwork tag payload => Sys2Proof.Machine.execPostNetwork tag payload s
  | .requestConversion tag payload => Sys2Proof.Machine.execRequestConversion tag payload s
  | .readChannels tag payload => Sys2Proof.Machine.execReadChannels tag payload s
  | .readGauges tag payload => Sys2Proof.Machine.execReadGauges tag payload s
  | .readWarnings tag payload => Sys2Proof.Machine.execReadWarnings tag payload s
  | .readDoors tag payload => Sys2Proof.Machine.execReadDoors tag payload s
  | .readFaults tag payload => Sys2Proof.Machine.execReadFaults tag payload s
  | .readDoorStats tag payload => Sys2Proof.Machine.execReadDoorStats tag payload s
  | .acknowledge tag payload => Sys2Proof.Machine.execAcknowledge tag payload s
  | .setChimeFloor tag payload => Sys2Proof.Machine.execSetChimeFloor tag payload s
  | .clearLimits tag payload => Sys2Proof.Machine.execClearLimits tag payload s
  | .enterService tag payload => Sys2Proof.Machine.execEnterService tag payload s
  | .leaveService tag payload => Sys2Proof.Machine.execLeaveService tag payload s
  | .gaugeTest tag payload => Sys2Proof.Machine.execGaugeTest tag payload s
  | .lampTest tag payload => Sys2Proof.Machine.execLampTest tag payload s
  | .chimeTest tag payload => Sys2Proof.Machine.execChimeTest tag payload s
  | .endTests tag payload => Sys2Proof.Machine.execEndTests tag payload s
  | .readRaw tag payload => Sys2Proof.Machine.execReadRaw tag payload s
  | .clearFaults tag payload => Sys2Proof.Machine.execClearFaults tag payload s
  | .resetDoorStats tag payload => Sys2Proof.Machine.execResetDoorStats tag payload s
  | .writeVehicleId tag payload => Sys2Proof.Machine.execWriteVehicleId tag payload s
  | .ignChange high => Sys2Proof.Machine.execIgnChange high s
  | .ignitionOnConfirmed => Sys2Proof.Machine.execIgnitionOnConfirmed s
  | .ignitionOffConfirmed => Sys2Proof.Machine.execIgnitionOffConfirmed s
  | .shutdownComplete => Sys2Proof.Machine.execShutdownComplete s
  | .operatingSecond => Sys2Proof.Machine.execOperatingSecond s
  | .comparatorEvent ch ohms => Sys2Proof.Machine.execComparatorEvent ch ohms s
  | .watchSettleEnd => Sys2Proof.Machine.execWatchSettleEnd s
  | .watchQuiet => Sys2Proof.Machine.execWatchQuiet s
  | .pathReady => Sys2Proof.Machine.execPathReady s
  | .gateOpen => Sys2Proof.Machine.execGateOpen s
  | .conversionComplete periods pin bias => Sys2Proof.Machine.execConversionComplete periods pin bias s
  | .freshnessExpiry n => Sys2Proof.Machine.execFreshnessExpiry n s
  | .lostTimerExpiry n => Sys2Proof.Machine.execLostTimerExpiry n s
  | .initialTimerExpiry n => Sys2Proof.Machine.execInitialTimerExpiry n s
  | .standstillTimerExpiry => Sys2Proof.Machine.execStandstillTimerExpiry s
  | .gaugeUpdate g => Sys2Proof.Machine.execGaugeUpdate g s
  | .delayExpiry w => Sys2Proof.Machine.execDelayExpiry w s
  | .reAlert w => Sys2Proof.Machine.execReAlert w s
  | .envelopeStep => Sys2Proof.Machine.execEnvelopeStep s
  | .bulbCheckEnd => Sys2Proof.Machine.execBulbCheckEnd s
  | .travelTimerExpiry leaf => Sys2Proof.Machine.execTravelTimerExpiry leaf s
  | .lockTimerExpiry leaf => Sys2Proof.Machine.execLockTimerExpiry leaf s
  | .confirmTimerExpiry src => Sys2Proof.Machine.execConfirmTimerExpiry src s
  | .recordProgramComplete => Sys2Proof.Machine.execRecordProgramComplete s
  | .headerProgramComplete => Sys2Proof.Machine.execHeaderProgramComplete s
  | .eraseComplete => Sys2Proof.Machine.execEraseComplete s
  | .rowProgramComplete => Sys2Proof.Machine.execRowProgramComplete s
  | .characterReceived char => Sys2Proof.Machine.execCharacterReceived char s
  | .tripClockTick => Sys2Proof.Machine.execTripClockTick s

end Sys2Proof.Machine
end

