-- ==== Sys2Proof/Machine/Catalogue.lean ====
section
/-! DEFINITION. The message catalogue as a host writes it (chapter 12): the code of each request command, the table of
states and lengths, request frames, the payloads of the configuration requests, and the state after a reply. The
statements about requests are written with them; no meaning reads them. -/

namespace Sys2Proof

/-- The kind code (section 12.3), TAG and payload of a request command; none for a pin event, an expiry or a completion. -/
def Instr.asRequest : Instr → Option (Nat × Byte × List Byte)
  | .identify t p => some (0x01, t, p)
  | .getState t p => some (0x02, t, p)
  | .fetchReports t p => some (0x03, t, p)
  | .restart t p => some (0x04, t, p)
  | .start t p => some (0x08, t, p)
  | .stop t p => some (0x09, t, p)
  | .setReference t p => some (0x10, t, p)
  | .setChannel t p => some (0x11, t, p)
  | .setScan t p => some (0x12, t, p)
  | .setMotion t p => some (0x13, t, p)
  | .setGauge t p => some (0x14, t, p)
  | .setCurve t p => some (0x15, t, p)
  | .setWarning t p => some (0x16, t, p)
  | .setLamp t p => some (0x17, t, p)
  | .setPattern t p => some (0x18, t, p)
  | .setLeaf t p => some (0x19, t, p)
  | .setFreeze t p => some (0x1A, t, p)
  | .postNetwork t p => some (0x20, t, p)
  | .requestConversion t p => some (0x21, t, p)
  | .readChannels t p => some (0x22, t, p)
  | .readGauges t p => some (0x23, t, p)
  | .readWarnings t p => some (0x24, t, p)
  | .readDoors t p => some (0x25, t, p)
  | .readFaults t p => some (0x26, t, p)
  | .readDoorStats t p => some (0x27, t, p)
  | .acknowledge t p => some (0x28, t, p)
  | .setChimeFloor t p => some (0x29, t, p)
  | .clearLimits t p => some (0x2A, t, p)
  | .enterService t p => some (0x30, t, p)
  | .leaveService t p => some (0x31, t, p)
  | .gaugeTest t p => some (0x32, t, p)
  | .lampTest t p => some (0x33, t, p)
  | .chimeTest t p => some (0x34, t, p)
  | .endTests t p => some (0x35, t, p)
  | .readRaw t p => some (0x36, t, p)
  | .clearFaults t p => some (0x37, t, p)
  | .resetDoorStats t p => some (0x38, t, p)
  | .writeVehicleId t p => some (0x39, t, p)
  | .hardReset _ | .softRestart _ | .rebuildComplete | .lineFault | .frameGapTimeout | .frameComplete _ | .replySent
  | .ignChange _ | .ignitionOnConfirmed | .ignitionOffConfirmed | .shutdownComplete | .operatingSecond
  | .comparatorEvent _ _ | .watchSettleEnd | .watchQuiet | .pathReady | .gateOpen | .conversionComplete _ _ _
  | .freshnessExpiry _ | .lostTimerExpiry _ | .initialTimerExpiry _ | .standstillTimerExpiry | .gaugeUpdate _
  | .delayExpiry _ | .reAlert _ | .envelopeStep | .bulbCheckEnd | .travelTimerExpiry _ | .lockTimerExpiry _
  | .confirmTimerExpiry _ | .recordProgramComplete | .headerProgramComplete | .eraseComplete | .rowProgramComplete
  | .characterReceived _ | .tripClockTick => none

namespace Machine

/-! ## The table of section 12.3 -/

/-- The operating states that accept a kind (R17, section 12.3). -/
def acceptedIn (kind : Nat) : List OpState :=
  if kind ≤ 0x02 then [.starting, .config, .run, .shutdown, .parked]
  else if kind ≤ 0x04 then [.config, .run, .shutdown, .parked]
  else if kind = 0x09 then [.run, .parked]
  else if kind ≤ 0x1A then [.config]
  else if kind = 0x26 ∨ kind = 0x27 ∨ 0x32 ≤ kind then [.config, .run]
  else [.run]

/-- The payload lengths that check 2 of R6 accepts for a kind (R190, section 12.3). -/
def acceptsLength (kind n : Nat) : Prop :=
  match kind with
  | 0x03 | 0x21 | 0x29 | 0x34 | 0x36 | 0x38 => n = 1
  | 0x10 => n = 6
  | 0x11 => 2 ≤ n ∧ n ≤ 37
  | 0x12 => n ≤ 40
  | 0x13 | 0x32 => n = 3
  | 0x14 => n = 1 ∨ n = 13
  | 0x15 => n = 1 ∨ ∃ k, 2 ≤ k ∧ k ≤ 12 ∧ n = 1 + 6 * k
  | 0x16 => n = 1 ∨ n = 12 ∨ n = 13 ∨ n = 17
  | 0x17 | 0x22 | 0x23 | 0x24 | 0x26 | 0x27 => n = 2
  | 0x18 => n = 1 ∨ n = 4
  | 0x19 => n = 1 ∨ n = 16
  | 0x1A => n = 0 ∨ n = 2 ∨ n = 4 ∨ n = 6 ∨ n = 8
  | 0x20 => ∃ k, 1 ≤ k ∧ k ≤ 16 ∧ n = 3 * k
  | 0x28 => n = 0 ∨ n = 1
  | 0x33 => n = 4
  | 0x39 => n ≤ 248
  | _ => n = 0

/-- The defined request kinds (section 12.3). -/
def requestKinds : List Nat :=
  [0x01, 0x02, 0x03, 0x04, 0x08, 0x09] ++ List.range' 0x10 11 ++ List.range' 0x20 11 ++ List.range' 0x30 10

/-- The service-only kinds (R181). -/
def serviceOnly (kind : Nat) : Prop := 0x32 ≤ kind ∧ kind ≤ 0x39

/-! ## Frames and replies -/

/-- The characters of a frame from LENGTH to the second CHECK character (section 12.1). -/
def frameChars (kind : Nat) (tag : Byte) (payload : List Byte) : List Byte :=
  let body := b1 (payload.length + 2) ++ b1 kind ++ [tag] ++ payload
  body ++ b2 (crc16 body).toNat

/-- The state in which the positive reply to a kind is being sent (R7). -/
def State.replied (s : State) (kind : Nat) (tag : Byte) (payload : List Byte) : State :=
  { s with li := { s.li with transmitter := .answering (syncByte :: frameChars (kind + 0x80) tag payload) } }

/-- The state in which a refusal is being sent (R6, section 12.1): its payload is the reason, for BAD_CONFIG with the
item. -/
def State.refused (s : State) (tag : Byte) (payload : List Nat) : State :=
  { s with li := { s.li with transmitter := .answering (syncByte :: frameChars 0xFF tag (payload.flatMap b1)) } }

/-- The state with the receiver in HUNTING and its buffer empty (R2). -/
def State.hunting (s : State) : State :=
  { s with li := { s.li with receiver := .hunting, buffer := [], gapMs := 0 } }

/-- The items of a readout from the first on. -/
def itemsFrom (n first count : Nat) : List (Fin n) := (List.range count).filterMap fun k => item? n (first + k)

/-! ## Payloads of the configuration requests (R192) -/

def BandMeaning.code : BandMeaning → Nat
  | .value => 0 | .active => 1 | .inactive => 2 | .faultShort => 3 | .faultOpen => 4

def Gating.code : Gating → Nat
  | .always => 0 | .moving => 1 | .standstill => 2

def Tone.code : Tone → Nat
  | .low => 0 | .high => 1

def LampStyle.code : LampStyle → Nat
  | .steady => 0 | .flash => 1

/-- An optional item number; absent is 0xFF. -/
def optByte {n : Nat} (x : Option (Fin n)) : List Byte := b1 ((x.map (·.val)).getD 0xFF)

/-- The payload of SET_REFERENCE. -/
def referencePayload (rRef lo hi : Nat) : List Byte := b2 rRef ++ b2 lo ++ b2 hi

/-- The payload of SET_CHANNEL for a wired channel. -/
def WiredCfg.payload (ch : Fin 24) (c : WiredCfg) : List Byte :=
  b1 ch.val ++ b1 c.kind.code ++ b1 c.gate.val ++ b1 c.confirm ++ b1 (bit c.watch) ++ b4 c.watchThr
    ++ optByte c.partner ++ b1 c.thresholds.length ++ c.thresholds.flatMap b4
    ++ c.meanings.flatMap fun m => b1 m.code

/-- A configuration that R48 admits for a non-OFF wired channel. -/
def WiredCfg.admitted (ch : Fin 24) (c : WiredCfg) : Prop :=
  c.kind ≠ .off ∧ 1 ≤ c.confirm ∧ c.confirm ≤ 7 ∧ c.thresholds.length ≤ 5 ∧ (∀ t ∈ c.thresholds, t ≤ 200000) ∧
    c.meanings.length = c.thresholds.length + 1 ∧ (∀ m ∈ c.meanings, c.kind.allows m = true) ∧
    c.watchThr < 2 ^ 32 ∧ (c.watch = true → c.kind = .switch ∧ 1 ≤ c.watchThr ∧ c.watchThr ≤ 200000) ∧
    c.partner ≠ some ch

/-- The payload of SET_CHANNEL for a network channel. -/
def NetCfg.payload (n : Fin 16) (c : NetCfg) : List Byte :=
  b1 (24 + n.val) ++ b1 c.kindCode ++ i2 c.min ++ i2 c.max ++ b1 c.fresh ++ b1 c.lost

/-- A signed number of 16 bits. -/
abbrev isS16 (i : Int) : Prop := -32768 ≤ i ∧ i ≤ 32767

/-- A configuration that R49 admits for a network channel of kind NETWORK. -/
def NetCfg.admitted (c : NetCfg) : Prop :=
  c.network = true ∧ isS16 c.min ∧ isS16 c.max ∧ c.min ≤ c.max ∧ 5 ≤ c.fresh ∧ c.fresh ≤ 255 ∧ 1 ≤ c.lost ∧
    c.lost ≤ 255

/-- The payload of SET_GAUGE with a full record. -/
def GaugeRec.payload (g : Fin 8) (r : GaugeRec) : List Byte :=
  b1 g.val ++ b1 r.source.val ++ i2 r.vMin ++ i2 r.vMax ++ b2 r.span ++ b2 r.rest ++ b1 r.k ++ b1 r.slew
    ++ b1 (bit r.sweep)

/-- A record that R72 admits. -/
def GaugeRec.admitted (r : GaugeRec) : Prop :=
  isS16 r.vMin ∧ isS16 r.vMax ∧ 100 ≤ r.span ∧ r.span ≤ 4000 ∧ r.rest ≤ 4000 ∧ r.k ≤ 7 ∧ 1 ≤ r.slew ∧ r.slew ≤ 255

/-- The payload of SET_CURVE. -/
def curvePayload (g : Fin 8) (ps : List CurvePoint) : List Byte := b1 g.val ++ ps.flatMap fun q => i4 q.x ++ i2 q.y

/-- Points that R73 admits. -/
def curveAdmitted (ps : List CurvePoint) : Prop :=
  ps.length ≠ 1 ∧ ps.length ≤ 12 ∧ ∀ q ∈ ps, -32768 ≤ q.x ∧ q.x ≤ 200000 ∧ isS16 q.y

/-- The condition type and operands of SET_WARNING. -/
def Condition.bytes : Condition → List Byte
  | .switchActive ch => b1 0 ++ b1 ch.val
  | .valueBelow g t h => b1 1 ++ b1 g.val ++ i2 t ++ b2 h
  | .valueAbove g t h => b1 2 ++ b1 g.val ++ i2 t ++ b2 h
  | .channelFault ch => b1 3 ++ b1 ch.val
  | .channelLost ch => b1 4 ++ b1 ch.val
  | .doorNotSecure ls => b1 5 ++ [ls]
  | .doorReleased ls => b1 6 ++ [ls]
  | .doorObstructed ls => b1 7 ++ [ls]
  | .doorFault ls => b1 8 ++ [ls]
  | .supplyLow => b1 9
  | .supplyHigh => b1 10
  | .motionUnknown => b1 11

/-- Operands that R93 admits: a threshold of 16 bits, a hysteresis of at most 32,767, a leaf set that is not empty. -/
def Condition.admitted : Condition → Prop
  | .valueBelow _ t h | .valueAbove _ t h => isS16 t ∧ h ≤ 32767
  | .doorNotSecure ls | .doorReleased ls | .doorObstructed ls | .doorFault ls => ls ≠ 0
  | .switchActive _ | .channelFault _ | .channelLost _ | .supplyLow | .supplyHigh | .motionUnknown => True

/-- The payload of SET_WARNING with a full definition. -/
def WarnDef.payload (w : Fin 64) (d : WarnDef) : List Byte :=
  b1 w.val ++ d.cond.bytes ++ b1 d.gating.code ++ b1 d.priority.code ++ b1 d.delay
    ++ flags [d.latching, d.ackable, d.faultLink] ++ optByte d.lamp ++ b1 d.style.code ++ b1 d.env.toNat
    ++ optByte d.pattern ++ b2 d.reAlert

/-- A definition that R93 admits. -/
def WarnDef.admitted (d : WarnDef) : Prop :=
  d.cond.admitted ∧ d.delay ≤ 255 ∧ (d.latching = true → d.ackable = true) ∧
    ¬ (d.lamp.isSome ∧ d.style = .flash ∧ d.env = 0) ∧ (d.reAlert = 0 ∨ 10 ≤ d.reAlert ∧ d.reAlert ≤ 600)

/-- The payload of SET_PATTERN with a full pattern. -/
def Pattern.payload (n : Fin 8) (q : Pattern) : List Byte := b1 n.val ++ b1 q.tone.code ++ b1 q.env.toNat ++ b1 q.rep

/-- The channel and polarity of an input of SET_LEAF; an unmapped one carries 0xFF and an ignored polarity. -/
def inputBytes (ignored : Byte) : Option LeafInput → List Byte
  | some i => b1 i.ch.val ++ b1 (bit i.inverted)
  | none => b1 0xFF ++ [ignored]

/-- The payload of SET_LEAF with a full configuration; `ignored` is the polarity byte of each slot that is not mapped. -/
def LeafCfg.payload (ignored : Fin 5 → Byte) (i : Fin 8) (c : LeafCfg) : List Byte :=
  b1 i.val ++ b1 c.doorway.val ++ ((List.finRange 5).flatMap fun slot => inputBytes (ignored slot) c.inputs[slot])
    ++ b1 c.travel ++ b1 c.lockTo ++ b1 c.closing ++ flags [c.watched]

/-- A configuration that R126 admits: CLOSED mapped, no channel named twice, the times in their ranges. -/
def LeafCfg.admitted (c : LeafCfg) : Prop :=
  c.inputs[slotClosed].isSome ∧ ((c.inputs.toList.filterMap id).map (·.ch)).Nodup ∧ 5 ≤ c.travel ∧ c.travel ≤ 100 ∧
    1 ≤ c.lockTo ∧ c.lockTo ≤ 50 ∧ 5 ≤ c.closing ∧ c.closing ≤ 150

/-- The selector and operand of an item of SET_FREEZE; the operand of SUPPLY, SPEED and DOOR_WORD is ignored. -/
def Selector.payload (ignored : Byte) : Selector → List Byte
  | .gaugeValue g => b1 0 ++ b1 g.val
  | .channelValue ch => b1 1 ++ b1 ch.val
  | .supply => b1 2 ++ [ignored]
  | .speed => b1 3 ++ [ignored]
  | .doorWord => b1 4 ++ [ignored]

/-- The pairs of POST_NETWORK. -/
def postPayload (ps : List (Byte × Int)) : List Byte := ps.flatMap fun q => q.1 :: i2 q.2

end Machine

end Sys2Proof
end

