-- ==== Sys2Proof/Safety.lean ====
section
/-! DEFINITION. What a sound state of the part is: the bounds and agreements that the rules promise of every moment between
two commands, one predicate per block, and their conjunction. -/

namespace Sys2Proof.Machine

/-! ## Link -/

/-- The report queue (R9): at most 64 reports, their sequences consecutive and ending just before the counter. -/
def Link.sound (l : Link) : Prop :=
  l.reports.length ≤ 64 ∧
    ∀ i, (h : i < l.reports.length) → l.reports[i].seq = l.nextSeq - BitVec.ofNat 16 (l.reports.length - i)

/-! ## Doors -/

/-- DOORS_CLEAR (R135): asserted exactly in RUN while every configured leaf is secure. -/
def State.doorsSound (s : State) : Prop := s.dm.doorsClear = (decide s.inRun && s.dm.allSecure)

/-! ## Gauges -/

/-- A gauge stays on its dial (R72, R76 to R79, R82, R83, R88): filter, commanded and test position lie within 0..span,
and the target does too where the rest position does, which START requires of every configuration that leaves CONFIG (R18
check 7). An unconfigured gauge is UNPOWERED. -/
def Gauge.sound (x : Gauge) (judged : Bool) : Prop :=
  match x.record with
  | some r =>
    (judged = true → r.rest ≤ r.span) ∧ x.target ≤ max r.span r.rest ∧ x.acc ≤ 256 * r.span ∧ x.filtered ≤ r.span ∧
      x.pos ≤ r.span ∧ x.testPos.getD 0 ≤ r.span
  | none => x.pointer = .unpowered

/-- The configuration in force has passed START. -/
def State.judged (s : State) : Bool := decide (s.sc.opState ≠ .starting) && decide (s.sc.opState ≠ .config)

/-- Every gauge is on its dial, and outside RUN and SHUTDOWN every gauge is UNPOWERED (R23, R86, R87, R92). -/
def State.gaugesSound (s : State) : Prop :=
  (∀ g : Fin 8, s.ge[g].sound s.judged) ∧ (¬ s.live → ∀ g : Fin 8, s.ge[g].pointer = .unpowered)

/-! ## Conversion -/

/-- The Conversion Unit (R34 to R36, R41): at most 40 scan entries, no channel queued twice, at most four priority
conversions in a row, and no latch SET without power. -/
def ConvUnit.sound (u : ConvUnit) : Prop :=
  u.scan.length ≤ 40 ∧ (u.queue.map (·.ch)).Nodup ∧ u.runCount ≤ 4 ∧
    ((u.inFlight.any fun c => decide (c.origin = .priority)) = true → u.runCount < 4) ∧
    ∀ ch : Fin 24, u.comparator[ch] = .unpowered → u.latch[ch] = .armed

/-! ## Channels -/

/-- A wired channel (R56): OFF exactly while its kind is OFF, FAULT exactly while its wiring fault class is not NONE. -/
def Wired.sound (w : Wired) : Prop :=
  (w.status = .off ↔ w.cfg.kind = .off) ∧ (w.status = .fault ↔ w.wiring ≠ .none)

/-- A network channel (R65): OFF exactly while its kind is OFF, and a timer runs in its own status alone. -/
def Net.sound (n : Net) : Prop :=
  (n.status = .off ↔ n.cfg.network = false) ∧ (n.freshT.isSome → n.status = .valid) ∧
    (n.lostT.isSome → n.status = .held) ∧ (n.initT.isSome → n.status = .init)

/-- The Channel Interpreter (R56, R58, R59, R65): its channels, and REFERENCE_FAULT exactly at three failures in a row. -/
def Interp.sound (c : Interp) : Prop :=
  (∀ ch : Fin 24, c.wired[ch].sound) ∧ (∀ n : Fin 16, c.net[n].sound) ∧ c.failCount ≤ 3 ∧
    (c.refFault = true ↔ c.failCount = 3)

/-! ## Warnings -/

/-- A state whose instance stands in the active warning list (R103). -/
def WarnState.standing : WarnState → Bool
  | .active | .acked | .retained => true
  | .inactive | .delaying => false

/-- The Warning Manager (R98, R102, R103, R111): the list names each standing instance once and no other, in falling
priority; a delay runs in DELAYING and a re-alert in ACKED; outside RUN every instance is INACTIVE. -/
def State.warnSound (s : State) : Prop :=
  s.wm.list.Nodup ∧ (∀ w : Fin 64, w ∈ s.wm.list ↔ s.wm.inst[w].state.standing = true) ∧
    (s.wm.list.Pairwise fun a b => (s.warnPriority b).code ≤ (s.warnPriority a).code) ∧
    (∀ w : Fin 64, (s.wm.inst[w].delayT.isSome ↔ s.wm.inst[w].state = .delaying) ∧
      (s.wm.inst[w].alertT.isSome → s.wm.inst[w].state = .acked)) ∧
    (¬ s.inRun → ∀ w : Fin 64, s.wm.inst[w].state = .inactive)

/-! ## Outputs and the session -/

/-- The Alert Output Unit and the session (R115 to R124, R180, R182, R183): the lamps stand at their drives and the claimant is the
one the rules name, from the list and floor the WM holds; the service flag is on in RUN and at STANDSTILL alone, and tests are
in force with it alone; outside RUN no bulb check runs. -/
def State.outputsSound (s : State) : Prop :=
  (∀ l : Fin 24, s.ao.drive[l] = s.lampDrive l) ∧ s.ao.claimant = s.claimantNow ∧
    s.ao.listCopy = s.listEntries ∧ s.ao.floorCopy = s.wm.floor ∧ s.ao.phase < 16 ∧
    (s.sc.service = true → s.inRun ∧ s.ci.motion = .standstill) ∧ (s.testsInForce = true → s.sc.service = true) ∧
    (¬ s.inRun → s.ao.bulb = none)

/-! ## Faults -/

/-- The bounds of an entry (R151): an occurrence of 1 to 255, first seen not after last seen. -/
abbrev FaultEntry.bounded (e : FaultEntry) : Prop :=
  1 ≤ e.occurrence ∧ e.occurrence ≤ 255 ∧ e.firstSeen ≤ e.lastSeen

/-- The Fault Memory (R149, R151, R154): at most 32 entries, one per code, each within its bounds, in the order of first-seen
and then code; at most four freeze items; a confirm timer runs while PENDING alone, and a source that is not present is
ABSENT. -/
def FaultMem.sound (f : FaultMem) : Prop :=
  f.index.length ≤ 32 ∧ (f.index.map (·.src)).Nodup ∧ f.freeze.length ≤ 4 ∧
    (∀ e ∈ f.index, e.bounded) ∧
    (f.index.Pairwise fun a b => a.firstSeen < b.firstSeen ∨
      (a.firstSeen = b.firstSeen ∧ faultCode a.src < faultCode b.src)) ∧
    ∀ i : Fin 147, (f.trackers[i].timer.isSome ↔ f.trackers[i].state = .pending) ∧
      (f.trackers[i].state ≠ .absent → f.presence[i] = true)

/-- Every live entry was last present fewer than 40 cycles ago (R151, R159, R172). -/
def State.indexYoung (s : State) : Prop := ∀ e ∈ s.fm.index, s.sc.cycle - e.lastCycle < 40

/-! ## Journal -/

/-- A record's content keeps the bounds of an entry, where it is one: it comes back into the index at a rebuild (R151,
R174). -/
def Content.bounded : Content → Bool
  | .faultEntry e => decide e.bounded
  | .clearMark | .cycle _ _ | .doorStats _ | .vid _ => true

/-- The content of a slot is bounded. -/
def Slot.bounded : Slot → Bool
  | .record r => r.content.bounded
  | .void => true

/-- The content that an operation writes is bounded. -/
def ArrayOp.bounded : ArrayOp → Bool
  | .program r | .copy r => r.content.bounded
  | .header _ | .row _ _ | .erase => true

/-- A program in flight writes a record of CLEAR_MARK. -/
def Journal.programsMark (j : Journal) : Bool :=
  match j.inFlight with
  | some (.program r) => decide (r.content.key = .clearMark)
  | _ => false

/-- An operation that writes the head slot. -/
def ArrayOp.writesSlot : ArrayOp → Bool
  | .program _ | .copy _ => true
  | _ => false

/-- The journal (R151, R165, R167, R168, R179): 48 slots a sector, one record per key in the commit queue, a blank slot under
every program of a record, no other operation beside the program that a soft restart lets run, and every fault entry that is
queued, being programmed or recorded within its bounds. -/
def Journal.sound (j : Journal) : Prop :=
  (∀ i : Fin 4, j.sectors[i].slots.length ≤ 48) ∧ (j.queue.map Content.key).Nodup ∧
    ((j.inFlight.any ArrayOp.writesSlot || j.finishing.any ArrayOp.writesSlot) = true → j.headRoom = true) ∧
    (j.finishing.isSome → j.inFlight = none) ∧
    (∀ i : Fin 4, ∀ x ∈ j.sectors[i].slots, x.bounded = true) ∧ (∀ c ∈ j.queue, c.bounded = true) ∧
    j.inFlight.all ArrayOp.bounded = true ∧ j.finishing.all ArrayOp.bounded = true

/-- Clear pending is set exactly while a CLEAR_MARK is queued or being programmed (R160, R161); there is one at a time, and
none in STARTING. -/
def State.clearSound (s : State) : Prop :=
  s.fm.clearPending = (s.jc.queue.any (fun c => decide (c.key = .clearMark)) || s.jc.programsMark) ∧
    (s.jc.programsMark = true → ∀ c ∈ s.jc.queue, c.key ≠ .clearMark) ∧
    (s.sc.opState = .starting → s.fm.clearPending = false)

/-! ## The whole part -/

/-- A sound state of the part. -/
structure State.Sound (s : State) : Prop where
  link     : s.li.sound
  doors    : s.doorsSound
  gauges   : s.gaugesSound
  conv     : s.cu.sound
  channels : s.ci.sound
  warnings : s.warnSound
  outputs  : s.outputsSound
  faults   : s.fm.sound
  young    : s.indexYoung
  journal  : s.jc.sound
  clear    : s.clearSound

end Sys2Proof.Machine
end

