-- ==== Sys2Proof/WellFormed.lean ====
section
/-! DEFINITION. Which terms of Instr are commands of the part: the bounds a frame sets on its operands. -/

namespace Sys2Proof

/-- A payload a frame can carry: 0 to 248 characters (section 1.2). -/
abbrev payloadFits (payload : List Byte) : Prop := payload.length ≤ 248

/-- The characters of one completed frame, from LENGTH on (R2): LENGTH is 2 to 250 and counts KIND to the last
payload character, and two CHECK characters follow. -/
abbrev frameFits : List Byte → Prop
  | [] => False
  | len :: rest => 2 ≤ len.toNat ∧ len.toNat ≤ 250 ∧ rest.length = len.toNat + 2

/-- A timed fault source, one whose tracker has a confirm timer (R147): WIRING and the two supply sources. -/
abbrev timedSource : FaultSource → Prop
  | .wiring _ => True
  | .system n => n ≠ 0
  | _ => False

/-- The bias of a conversion is not zero: R31 judges the pin against its fifths. -/
abbrev biasApplied (bias : Nat) : Prop := 0 < bias

/-- The well-formed commands. Item numbers are bounded by their types; what is left is the length of a payload, the
shape of a frame, the bias of a conversion and the kind of source that has a confirm timer. -/
def WellFormed : Instr → Prop
  | .frameComplete chars => frameFits chars
  | .conversionComplete _ _ bias => biasApplied bias
  | .confirmTimerExpiry src => timedSource src
  | .identify _ p | .getState _ p | .fetchReports _ p | .restart _ p | .start _ p | .stop _ p
  | .setReference _ p | .setChannel _ p | .setScan _ p | .setMotion _ p | .setGauge _ p | .setCurve _ p
  | .setWarning _ p | .setLamp _ p | .setPattern _ p | .setLeaf _ p | .setFreeze _ p | .postNetwork _ p
  | .requestConversion _ p | .readChannels _ p | .readGauges _ p | .readWarnings _ p | .readDoors _ p
  | .readFaults _ p | .readDoorStats _ p | .acknowledge _ p | .setChimeFloor _ p | .clearLimits _ p
  | .enterService _ p | .leaveService _ p | .gaugeTest _ p | .lampTest _ p | .chimeTest _ p | .endTests _ p
  | .readRaw _ p | .clearFaults _ p | .resetDoorStats _ p | .writeVehicleId _ p => payloadFits p
  | .hardReset _ | .softRestart _ | .rebuildComplete | .lineFault | .frameGapTimeout | .replySent
  | .ignChange _ | .ignitionOnConfirmed | .ignitionOffConfirmed | .shutdownComplete | .operatingSecond
  | .comparatorEvent _ _ | .watchSettleEnd | .watchQuiet | .pathReady | .gateOpen
  | .freshnessExpiry _ | .lostTimerExpiry _ | .initialTimerExpiry _ | .standstillTimerExpiry
  | .gaugeUpdate _ | .delayExpiry _ | .reAlert _ | .envelopeStep | .bulbCheckEnd
  | .travelTimerExpiry _ | .lockTimerExpiry _
  | .recordProgramComplete | .headerProgramComplete | .eraseComplete | .rowProgramComplete
  | .characterReceived _ | .tripClockTick => True

end Sys2Proof
end

