-- ==== Sys2Proof/Certificates/Slice0/Obligations.lean ====
section
/-! DEFINITION. The statements for the provers. A statement about a command gives the whole next state, or says part by part
what it holds; the log entries that a statement rests on are named in its docstring. -/

open Sys2Proof Sys2Proof.Machine

/-! ## Reports -/

namespace Sys2Proof.Machine

/-- A report with this event, item and value is in the queue, placed since `s` or the newest of its kind. -/
def State.hasReport (t : State) (e : Event) (item : Nat) (v : Option Word16) : Prop :=
  ∃ r ∈ t.li.reports, r.event = e ∧ r.item = item ∧ r.value = v

/-- Between two states some reports have been placed, these among them and in this order, each an event with its item and
value (R9). -/
def State.hasPlaced (s t : State) (wanted : List (Event × Nat × Option Word16)) : Prop :=
  ∃ rs : List (Event × Nat × Option Word16), wanted.Sublist rs ∧
    let l := rs.foldl (fun l r => l.place r.1 r.2.1 r.2.2) s.li
    t.li.reports = l.reports ∧ t.li.nextSeq = l.nextSeq

end Sys2Proof.Machine

/-! ## Steps and resets -/

/-- A step takes the command at the front of the queue and runs it with the queue's rest; on an empty queue the part idles
(the model's choice, log 4). -/
def Obligations.StepRunsTheFrontCommand : Prop :=
  (∀ (c : Instr) (rest : List Instr) (s : State),
    step { s with pending := c :: rest } = exec c { s with pending := rest }) ∧
  ∀ s : State, s.pending = [] → step s = .next s

namespace Sys2Proof.Machine

/-- What the Conversion Unit holds after either reset (R45). -/
def ConvUnit.atReset (u : ConvUnit) : Prop :=
  u.inFlight = none ∧ u.path = .unpowered ∧ u.scan = [] ∧ u.pos = .reference ∧ u.queue = [] ∧ u.runCount = 0 ∧
    (∀ ch : Fin 24, u.comparator[ch] = .unpowered ∧ u.latch[ch] = .armed ∧ u.lastResult[ch] = none) ∧
    u.lastRef = none

/-- What the Channel Interpreter holds after either reset (R71); that the cleared configuration holds 0 in the fields R71
gives no value is the model's choice (log 40). -/
def Interp.atReset (c : Interp) : Prop :=
  (∀ ch : Fin 24, let w := c.wired[ch]
    w.cfg = { kind := .off, gate := 0, confirm := 0, thresholds := [], meanings := [], watch := false, watchThr := 0
              partner := none } ∧
      w.status = .off ∧ w.candidate = none ∧ w.confirmed = none ∧ w.wiring = .none ∧ w.value = none ∧
      w.reading = none ∧ w.switched = false ∧ w.limited = false) ∧
  (∀ n : Fin 16, let x := c.net[n]
    x.cfg = { network := false, min := 0, max := 0, fresh := 0, lost := 0 } ∧ x.status = .off ∧ x.value = none ∧
      x.freshT = none ∧ x.lostT = none ∧ x.initT = none ∧ x.limited = false) ∧
  c.rRef = 1000 ∧ c.nRefMin = 3000 ∧ c.nRefMax = 5000 ∧ c.judgement = none ∧ c.failCount = 0 ∧ c.refFault = false ∧
    c.supply = .normal ∧ c.supplyMv = none ∧ c.motionChannel = none ∧ c.moveThr = 0 ∧ c.stopThr = 0 ∧
    c.motion = .standstill ∧ c.standstillT = none

/-- What a gauge holds after either reset (R92). -/
def Gauge.atReset (x : Gauge) : Prop :=
  x.record = none ∧ x.curve = [] ∧ x.pointer = .unpowered ∧ x.resume = none ∧ x.display = none ∧ x.range = .none ∧
    x.target = 0 ∧ x.acc = 0 ∧ x.filtered = 0 ∧ x.pos = 0 ∧ x.homingPhase = .none ∧ x.stopPulses = 0 ∧
    x.sweepPhase = .none ∧ x.testPos = none ∧ x.restarts = 0 ∧ x.limited = false ∧ x.updateMs = 0

/-- What the Warning Manager holds after either reset (R112). -/
def WarnMgr.atReset (m : WarnMgr) : Prop :=
  (∀ w : Fin 64, m.defs[w] = none ∧
    m.inst[w] = { state := .inactive, cond := false, delayT := none, alertT := none, act := none }) ∧
    m.list = [] ∧ m.counter = 0 ∧ m.floor = .notice ∧ m.view = none

/-- What the Alert Output Unit holds after either reset (R125). -/
def Alert.atReset (a : Alert) : Prop :=
  (∀ l : Fin 24, a.used[l] = false ∧ a.drive[l] = .dark ∧ a.overrides[l] = none) ∧
    (∀ p : Fin 8, a.patterns[p] = none) ∧ a.genRunning = false ∧ a.phase = 0 ∧ a.source = .none ∧
    a.claimant = .none ∧ a.burst = 0 ∧ (∀ w : Fin 64, a.finished[w] = none) ∧ a.bulb = none ∧ a.chimeTest = none ∧
    a.listCopy = [] ∧ a.floorCopy = .notice

/-- What the Door Monitor holds after either reset (R146): no leaf configured, every reading UNKNOWN, every doorway EMPTY,
DOORS_CLEAR negated, the statistics zero until the rebuild, the condition view empty. -/
def DoorMon.atReset (d : DoorMon) : Prop :=
  (∀ l : Fin 8, d.leaves[l].cfg = none ∧ d.leaves[l].state = .unknown ∧ d.leaves[l].travelT = none ∧
      d.leaves[l].lockT = none ∧ d.leaves[l].closingT = none ∧ d.leaves[l].cycleMark = false ∧
      d.leaves[l].lockFault = false ∧ d.leaves[l].slow = false ∧ d.leaves[l].inputFault = false ∧
      d.leaves[l].releaseRose = false ∧ (∀ slot : Fin 5, d.leaves[l].readings[slot] = .unknown) ∧ d.conds[l] = none ∧
      d.stats[l] = { cycles := 0, obstructions := 0, slow := 0, mean := none }) ∧
    (∀ w : Fin 4, d.doorway[w] = none) ∧ d.doorsClear = false

/-- What the Fault Memory holds after either reset (R164). -/
def FaultMem.atReset (f : FaultMem) : Prop :=
  (∀ i : Fin 147, f.presence[i] = false ∧ f.trackers[i] = { state := .absent, timer := none }) ∧ f.index = [] ∧
    f.freeze = [] ∧ f.full = false ∧ f.clearPending = false

/-- What the Link Interface holds after either reset (R14); no vehicle identity until the rebuild (R12). -/
def Link.atReset (l : Link) : Prop :=
  l.receiver = .hunting ∧ l.buffer = [] ∧ l.transmitter = .idle ∧ l.reports = [] ∧ l.nextSeq = 0 ∧ l.tripClock = 0 ∧
    l.vehicleId = none

/-- What the State Controller holds after either reset (R25). -/
def Controller.atReset (c : Controller) : Prop :=
  c.opState = .starting ∧ c.service = false ∧ c.ignOn = false ∧ c.steadyMs = 0 ∧ c.newCycle = true ∧ c.cycle = 0 ∧
    c.opSeconds = 0 ∧ c.remainderMs = 0 ∧ c.cycleInterval = 0 ∧ c.watch = .quiet ∧ c.ignPending = false

/-- Every block but the Journal Controller holds its values after a reset. -/
def State.atReset (s : State) : Prop :=
  s.li.atReset ∧ s.sc.atReset ∧ s.cu.atReset ∧ s.ci.atReset ∧ (∀ g : Fin 8, s.ge[g].atReset) ∧ s.wm.atReset ∧
    s.ao.atReset ∧ s.dm.atReset ∧ s.fm.atReset ∧ s.jc.queue = [] ∧ s.jc.inFlight = none ∧ s.jc.reclaim = .idle

end Sys2Proof.Machine

/-- The reset tables of R45, R112 and R125 whole, after either reset: what the Conversion Unit, the Warning Manager and the
Alert Output Unit hold, the configuration the CU reads cleared (its gate codes at 0 by the model's choice, log 40), no report
placed, every lamp dark and CHIME silent. -/
def Obligations.ResetsEmptyConversionWarningsAndAlerts : Prop :=
  ∀ (s : State) (lrateHigh : Bool) (c : Instr),
    c = .hardReset lrateHigh ∨ (c = .softRestart lrateHigh ∧ s.li.restartPending = true ∧ s.li.transmitter = .idle) →
    ∃ t, exec c s = .next t ∧ t.cu.atReset ∧ (∀ ch : Fin 24, t.ci.wired[ch].cfg = .cleared) ∧ t.wm.atReset ∧
      t.ao.atReset ∧ (∀ l : Fin 24, t.lampLit l = false) ∧ t.chimeTone = none ∧ t.li.reports = []

/-! ## The invariant of the part -/

/-- The state right after a reset is sound. -/
def Obligations.ResetStateIsSound : Prop := State.reset.Sound

/-- Every step keeps the report queue at 64 reports with consecutive sequences (R9). -/
def Obligations.StepsKeepTheReportQueue : Prop := ∀ s t : State, s.Sound → step s = .next t → t.li.sound

/-- Every step keeps DOORS_CLEAR asserted exactly in RUN with every configured leaf secure (R135). -/
def Obligations.StepsKeepDoorsClear : Prop := ∀ s t : State, s.Sound → step s = .next t → t.doorsSound

/-- Every step keeps every pointer on its dial, and UNPOWERED outside RUN and SHUTDOWN (R76 to R79, R86, R87). -/
def Obligations.StepsKeepGaugesOnTheirDials : Prop := ∀ s t : State, s.Sound → step s = .next t → t.gaugesSound

/-- Every step keeps the conversion queue without duplicates, the run count at most 4, and no latch SET without power
(R35, R36, R41). -/
def Obligations.StepsKeepTheConversionQueue : Prop := ∀ s t : State, s.Sound → step s = .next t → t.cu.sound

/-- Every step keeps channel statuses in step with kind, wiring class and timers, and REFERENCE_FAULT with the failure count
(R56, R59, R65). -/
def Obligations.StepsKeepChannelStatuses : Prop := ∀ s t : State, s.Sound → step s = .next t → t.ci.sound

/-- Every step keeps the active warning list: each standing instance once, in falling priority, none outside RUN
(R103, R111). -/
def Obligations.StepsKeepTheWarningList : Prop := ∀ s t : State, s.Sound → step s = .next t → t.warnSound

/-- Every step keeps lamps at their drives, the claimant as R117 names it, tests inside a session, and the session in RUN
with the motion state STANDSTILL (R117 to R124, R180, R182). -/
def Obligations.StepsKeepOutputsAndSession : Prop := ∀ s t : State, s.Sound → step s = .next t → t.outputsSound

/-- Every step keeps 48 slots a sector, one queued record per key, a blank slot under every record program, and every fault
entry on its way to the array or in it within the bounds of R151 (R165, R167, R168). -/
def Obligations.StepsKeepTheJournal : Prop := ∀ s t : State, s.Sound → step s = .next t → t.jc.sound

/-- Every step keeps the fault index at 32 entries, one per code, in the order of first-seen and then code, each with an
occurrence of 1 to 255, first seen not after last seen and last present fewer than 40 cycles ago; confirm timers in PENDING
alone; and clear pending set exactly while a CLEAR_MARK is queued or being programmed (R149, R151, R160, R161). -/
def Obligations.StepsKeepTheFaultIndex : Prop :=
  (∀ s t : State, s.Sound → step s = .next t → t.fm.sound) ∧
  (∀ s t : State, s.Sound → step s = .next t → t.indexYoung) ∧
  (∀ s t : State, s.Sound → step s = .next t → t.clearSound)

/-! ## The link -/

namespace Sys2Proof.Machine

/-- Some commands run one after another. -/
def runCommands : List Instr → State → Host.Outcome State Fault Refusal
  | [], s => .next s
  | c :: cs, s =>
    match exec c s with
    | .next t => runCommands cs t
    | o => o

end Sys2Proof.Machine

/-- A frame that completes with a good check value and one of the 38 kinds has the effect of that kind's row, with its TAG
and payload; and SYNC with the characters of a frame, received one after another from HUNTING, have the effect of the frame's
completion (R2, R4; that a request row stands for its frame is the model's choice, log 9). -/
def Obligations.FramesRunTheRequestOfTheirKind : Prop :=
  (∀ (i : Instr) (kind : Nat) (tag : Byte) (p : List Byte) (s : State),
    i.asRequest = some (kind, tag, p) → p.length ≤ 248 →
    ∃ t, exec i s.hunting = .next t ∧ exec (.frameComplete (frameChars kind tag p)) s = .next t) ∧
  (∀ (s : State) (chars : List Byte), s.li.receiver = .hunting → frameFits chars →
    ∃ t, runCommands ((syncByte :: chars).map .characterReceived) s = .next t ∧ exec (.frameComplete chars) s = .next t)

/-- What one received character does, by the receiver's state; a line fault and a gap of more than 3 ms abandon the partial
frame and touch nothing else, and in HUNTING they are without effect (a gap not yet over 3 ms too: the model's choice, log
5); REPLY_SENT returns the transmitter to IDLE. TXD carries the characters of a reply back to back, each a low start bit,
eight data bits from the lowest on and a high stop bit, and rests high after them and whenever the transmitter is IDLE (R1,
R2, R3, R5). -/
def Obligations.LineEventsFollowTheReceiver : Prop :=
  (∀ (s : State) (b : Byte),
    (s.li.receiver = .hunting → b = 0xC3 → exec (.characterReceived b) s =
      .next { s with li := { s.li with receiver := .assembling, buffer := [], gapMs := 0 } }) ∧
    (s.li.receiver = .hunting → b ≠ 0xC3 → exec (.characterReceived b) s = .next s) ∧
    (s.li.receiver = .assembling → 3 < s.li.gapMs →
      exec (.characterReceived b) s = exec (.characterReceived b) s.hunting) ∧
    (s.li.receiver = .assembling → s.li.gapMs ≤ 3 → s.li.buffer = [] → b.toNat < 2 ∨ 250 < b.toNat →
      exec (.characterReceived b) s = .next s.hunting) ∧
    (s.li.receiver = .assembling → s.li.gapMs ≤ 3 → s.li.buffer = [] → 2 ≤ b.toNat → b.toNat ≤ 250 →
      exec (.characterReceived b) s = .next { s with li := { s.li with buffer := [b], gapMs := 0 } }) ∧
    ∀ (len : Byte) (rest : List Byte), s.li.receiver = .assembling → s.li.gapMs ≤ 3 → s.li.buffer = len :: rest →
      2 ≤ len.toNat → len.toNat ≤ 250 →
      (rest.length + 1 < len.toNat + 2 → exec (.characterReceived b) s =
        .next { s with li := { s.li with buffer := len :: rest ++ [b], gapMs := 0 } }) ∧
      (rest.length + 1 = len.toNat + 2 →
        exec (.characterReceived b) s = exec (.frameComplete (len :: rest ++ [b])) s)) ∧
  (∀ s : State,
    (s.li.receiver = .assembling → exec .lineFault s = .next s.hunting) ∧
    (s.li.receiver = .hunting → exec .lineFault s = .next s) ∧
    (s.li.receiver = .assembling → 3 < s.li.gapMs → exec .frameGapTimeout s = .next s.hunting) ∧
    (s.li.receiver = .hunting ∨ s.li.gapMs ≤ 3 → exec .frameGapTimeout s = .next s) ∧
    exec .replySent s = .next { s with li := { s.li with transmitter := .idle } }) ∧
  ∀ s : State,
    (s.li.transmitter = .idle → ∀ n, s.txd n = true) ∧
    ∀ reply : List Byte, s.li.transmitter = .answering reply →
      (∀ (k : Nat) (b : Byte), reply[k]? = some b → s.txd (10 * k) = false ∧
        (∀ i, i < 8 → s.txd (10 * k + 1 + i) = b.getLsbD i) ∧ s.txd (10 * k + 9) = true) ∧
      ∀ n, 10 * reply.length ≤ n → s.txd n = true

/-- A frame taken with a check value that differs is answered BAD_FRAME and one of an undefined kind UNKNOWN_KIND, with the
TAG as received; of the 38 requests each is checked for length, then operating state, then service mode. The first check that
fails refuses it with nothing changed but the reply. A frame is discarded that finds the transmitter answering; that one
which finds it IDLE with a RESTART pending is discarded too is DEDUCED (log 33) (R4 to R6, R17, R181, R190). -/
def Obligations.FramesAndRequestsAreCheckedInOrder : Prop :=
  (∀ (s : State) (len kind tag lo hi : Byte) (p : List Byte), p.length ≤ 248 → len.toNat = p.length + 2 →
    let body := len :: kind :: tag :: p
    let agrees := lo.toNat + 256 * hi.toNat = (crc16 body).toNat
    (¬ s.taking → exec (.frameComplete (body ++ [lo, hi])) s = .next s.hunting) ∧
    (s.taking → ¬ agrees → exec (.frameComplete (body ++ [lo, hi])) s = .next (s.hunting.refused tag [0x01])) ∧
    (s.taking → agrees → kind.toNat ∉ requestKinds →
      exec (.frameComplete (body ++ [lo, hi])) s = .next (s.hunting.refused tag [0x02]))) ∧
  (∀ (i : Instr) (kind : Nat) (tag : Byte) (p : List Byte) (s : State), i.asRequest = some (kind, tag, p) →
    (¬ s.taking → exec i s = .next s) ∧
    (s.taking → ¬ acceptsLength kind p.length → exec i s = .next (s.refused tag [0x03])) ∧
    (s.taking → acceptsLength kind p.length → s.sc.opState ∉ acceptedIn kind →
      exec i s = .next (s.refused tag [0x05])) ∧
    (s.taking → acceptsLength kind p.length → s.sc.opState ∈ acceptedIn kind → serviceOnly kind →
      s.sc.service = false → exec i s = .next (s.refused tag [0x06])))

/-- Every taken request gets exactly one reply with its TAG: a positive one of its kind with 0x80 added, or a refusal that
changes nothing in the part but the transmitter (R6, R7). -/
def Obligations.EveryTakenRequestIsAnsweredOnce : Prop :=
  ∀ (i : Instr) (kind : Nat) (tag : Byte) (p : List Byte) (s : State), i.asRequest = some (kind, tag, p) → s.taking →
    ∃ t, exec i s = .next t ∧
      ((∃ q, t.li.transmitter = .answering (syncByte :: frameChars (kind + 0x80) tag q)) ∨
        ∃ reasons, t = s.refused tag reasons)

/-! ## Requests that read -/

/-- FETCH_REPORTS removes the n oldest reports, n the smaller of max and the reports held, and carries them oldest first with
n and the number left; a max of 0 or above 12 is refused BAD_VALUE; all else stays (R11). -/
def Obligations.FetchReportsRemovesTheOldest : Prop :=
  ∀ (s : State) (tag b : Byte), s.taking → s.sc.opState ≠ .starting →
    (1 ≤ b.toNat → b.toNat ≤ 12 → s.li.reports.length ≤ 64 →
      ∀ out left : List Report, s.li.reports = out ++ left → out.length = min b.toNat s.li.reports.length →
      exec (.fetchReports tag [b]) s =
        .next (({ s with li := { s.li with reports := left } } : State).replied 0x03 tag
          (b1 out.length ++ b1 left.length ++ out.flatMap fun r =>
            b2 r.seq.toNat ++ b4 r.time.toNat ++ b1 r.event.sourceCode ++ b1 r.event.code ++ b2 r.item ++
              b1 (if r.value.isSome then 1 else 0) ++ b2 (r.value.getD 0).toNat))) ∧
    (b.toNat = 0 ∨ 12 < b.toNat → exec (.fetchReports tag [b]) s = .next (s.refused tag [0x04]))

/-- ATTN is asserted while the queue holds a report and, in PARKED, for the whole of a watch wake; it rises when a report
enters an empty queue, and falls when the last report is fetched outside a wake (R10). -/
def Obligations.AttnFollowsTheQueueAndTheWake : Prop :=
  (∀ s : State, s.attn = true ↔ s.li.reports ≠ [] ∨ (s.sc.opState = .parked ∧ s.sc.watch ≠ .quiet)) ∧
  (∀ (e : Event) (item : Nat) (v : Option Word16) (s : State), (report e item v s).attn = true) ∧
  ∀ (s t : State) (tag b : Byte), s.taking → s.sc.opState ≠ .starting → 1 ≤ b.toNat → b.toNat ≤ 12 →
    s.li.reports.length ≤ b.toNat → ¬ (s.sc.opState = .parked ∧ s.sc.watch ≠ .quiet) →
    exec (.fetchReports tag [b]) s = .next t → t.attn = false

namespace Sys2Proof.Machine

/-- A byte of flags, the first in bit 0 (section 12.6). -/
def flagBits : List Bool → List Byte
  | fs => b1 (fs.mapIdx fun i f => if f then 2 ^ i else 0).sum

/-- The code of an optional reading class: BAND(i) is i, none 0xFF (R189). -/
def classByte : Option ReadingClass → Nat
  | some (.band i) => i
  | some .saturated => 0x10
  | some .stallLow => 0x11
  | some .stallMid => 0x12
  | some .stallHigh => 0x13
  | none => 0xFF

end Sys2Proof.Machine

/-- READ_CHANNELS, READ_GAUGES and READ_DOOR_STATS carry a header and one entry of 12, 17 and 12 bytes for each item from the
first on, with the fields of section 12.6 in their order; a range that does not fit is refused BAD_VALUE; nothing else changes
(R69, R91, R145, R194). -/
def Obligations.RangeReadoutsCarryTheirItems : Prop :=
  ∀ (s : State) (tag first count : Byte), s.taking →
    (s.sc.opState = .run →
      (1 ≤ count.toNat → count.toNat ≤ 12 → first.toNat + count.toNat ≤ 40 →
        exec (.readChannels tag [first, count]) s = .next (s.replied 0x22 tag (s.ci.header count.toNat ++
          (itemsFrom 40 first.toNat count.toNat).flatMap s.ci.entry))) ∧
      (count.toNat = 0 ∨ 12 < count.toNat ∨ 40 < first.toNat + count.toNat →
        exec (.readChannels tag [first, count]) s = .next (s.refused tag [0x04])) ∧
      (1 ≤ count.toNat → first.toNat + count.toNat ≤ 8 →
        exec (.readGauges tag [first, count]) s = .next (s.replied 0x23 tag (b1 count.toNat ++
          (itemsFrom 8 first.toNat count.toNat).flatMap s.gaugeEntry))) ∧
      (count.toNat = 0 ∨ 8 < first.toNat + count.toNat →
        exec (.readGauges tag [first, count]) s = .next (s.refused tag [0x04]))) ∧
    (s.sc.opState = .run ∨ s.sc.opState = .config →
      (1 ≤ count.toNat → first.toNat + count.toNat ≤ 8 →
        exec (.readDoorStats tag [first, count]) s = .next (s.replied 0x27 tag (b1 count.toNat ++
          (itemsFrom 8 first.toNat count.toNat).flatMap fun i =>
            let d := s.dm.stats[i]
            b1 i.val ++ b4 d.cycles ++ b2 d.obstructions ++ b2 d.slow ++ b2 (d.mean.getD 0) ++
              b1 (if d.mean.isSome then 1 else 0)))) ∧
      (count.toNat = 0 ∨ 8 < first.toNat + count.toNat →
        exec (.readDoorStats tag [first, count]) s = .next (s.refused tag [0x04]))) ∧
    (s.ci.header count.toNat).length = 10 ∧ (∀ ch : Fin 40, (s.ci.entry ch).length = 12) ∧
    (∀ g : Fin 8, (s.gaugeEntry g).length = 17) ∧
    s.ci.header count.toNat =
      b1 (if s.ci.refFault then 2 else match s.ci.judgement with
          | some .good => 0
          | some .failed => 1
          | none => 3) ++ b1 s.ci.failCount ++ b2 (s.ci.passCount.getD 0) ++ b2 (s.ci.supplyMv.getD 0) ++
        b1 s.ci.supply.code ++ b1 s.ci.motion.code ++ flagBits [s.ci.passCount.isSome, s.ci.supplyMv.isSome] ++
        b1 count.toNat ∧
    (∀ ch : Fin 24, let w := s.ci.wired[ch]
      s.ci.entry (wiredCh ch) = b1 ch.val ++ b1 w.cfg.kind.code ++ b1 w.status.code ++ b1 w.wiring.code ++
        b1 (classByte w.confirmed) ++ b4 (w.value.getD 0) ++
        b1 (match w.reading with
          | some .active => 1
          | some .inactive => 0
          | none => 0xFF) ++ b1 (s.ci.eff (wiredCh ch)).status.code ++
        flagBits [w.value.isSome, w.switched, w.limited]) ∧
    (∀ n : Fin 16, let x := s.ci.net[n]
      s.ci.entry (netCh n) = b1 (24 + n.val) ++ b1 (if x.cfg.network then 3 else 0) ++ b1 x.status.code ++ b1 0 ++
        b1 0xFF ++ i4 (x.value.getD 0) ++ b1 0xFF ++ b1 x.status.code ++ flagBits [x.value.isSome, false, x.limited]) ∧
    ∀ g : Fin 8, let x := s.ge[g]
      s.gaugeEntry g = b1 g.val ++ flagBits [x.record.isSome, x.display.isSome, x.testPos.isSome, x.limited] ++
        b1 x.pointer.code ++ b1 (match x.resume with
          | some st => st.code
          | none => 0xFF) ++ i2 (x.display.getD 0) ++ b1 x.range.code ++
        b1 (match x.record with
          | some r => (s.ci.eff r.source).status.code
          | none => 0) ++ b2 x.target ++ b2 x.filtered ++ b2 x.pos ++ b2 (x.testPos.getD 0) ++ b1 x.restarts

/-- READ_WARNINGS and READ_FAULTS carry the entries of their list from a position on, up to the count or the end of the list,
in entries of 8 bytes and of 21 with 7 for each freeze item, with the fields of section 12.6 in their order; a position or
count outside its range is refused BAD_VALUE; nothing else changes (R104, R162, R194). The operand of a selector without one
is sent as 0, which is DEDUCED (log 21). -/
def Obligations.ListReadoutsCarryTheirEntries : Prop :=
  ∀ (s : State) (tag first count : Byte), s.taking →
    (s.sc.opState = .run →
      (first.toNat < 64 → 1 ≤ count.toNat → count.toNat ≤ 16 →
        ∀ before now after : List (Fin 64), s.wm.list = before ++ now ++ after →
        (before.length = first.toNat ∨ (before.length < first.toNat ∧ now ++ after = [])) →
        (now.length = count.toNat ∨ (now.length < count.toNat ∧ after = [])) →
        exec (.readWarnings tag [first, count]) s = .next (s.replied 0x24 tag (b1 s.wm.list.length ++
          b1 s.wm.floor.code ++ b1 now.length ++ now.flatMap s.warnEntry))) ∧
      (64 ≤ first.toNat ∨ count.toNat = 0 ∨ 16 < count.toNat →
        exec (.readWarnings tag [first, count]) s = .next (s.refused tag [0x04]))) ∧
    (s.sc.opState = .run ∨ s.sc.opState = .config →
      (first.toNat < 32 → 1 ≤ count.toNat → count.toNat ≤ 4 →
        ∀ before now after : List FaultEntry, s.fm.index = before ++ now ++ after →
        (before.length = first.toNat ∨ (before.length < first.toNat ∧ now ++ after = [])) →
        (now.length = count.toNat ∨ (now.length < count.toNat ∧ after = [])) →
        exec (.readFaults tag [first, count]) s = .next (s.replied 0x26 tag (b1 s.fm.index.length ++
          b1 ((if s.fm.full then 1 else 0) + (if s.fm.clearPending then 2 else 0)) ++ b1 now.length ++
          now.flatMap s.faultBytes))) ∧
      (32 ≤ first.toNat ∨ count.toNat = 0 ∨ 4 < count.toNat →
        exec (.readFaults tag [first, count]) s = .next (s.refused tag [0x04]))) ∧
    (∀ w : Fin 64, (s.warnEntry w).length = 8) ∧
    (∀ e : FaultEntry, (s.faultBytes e).length = 21 + 7 * e.frame.length) ∧
    (∀ (w : Fin 64) (d : WarnDef) (act : Word32), s.wm.defs[w] = some d → s.wm.inst[w].act = some act →
      s.warnEntry w = b1 w.val ++ b1 s.wm.inst[w].state.code ++ b1 d.priority.code ++ flagBits [d.ackable] ++
        b4 act.toNat) ∧
    ∀ e : FaultEntry, s.faultBytes e = b2 (faultCode e.src) ++ b1 e.severity.code ++ b1 e.occurrence ++
      b4 e.firstSeen ++ b4 e.lastSeen ++ b2 e.firstCycle ++ b2 e.lastCycle ++
      b2 (match e.displaces with
        | some v => faultCode v
        | none => 0) ++
      b1 (s.fm.tracker e.src).state.code ++ flagBits [e.displaces.isSome] ++ b1 e.frame.length ++
      e.frame.flatMap fun item =>
        (match item.sel with
          | .gaugeValue g => b1 0 ++ b1 g.val
          | .channelValue ch => b1 1 ++ b1 ch.val
          | .supply => b1 2 ++ b1 0
          | .speed => b1 3 ++ b1 0
          | .doorWord => b1 4 ++ b1 0) ++
        (match item.value with
          | some x => b1 1 ++ i4 x
          | none => b1 0 ++ i4 0)

/-- IDENTIFY and GET_STATE in every operating state, READ_DOORS in RUN and READ_RAW in a session answer the fields of the
catalogue and change nothing but the transmitter, each leaf with the fields of section 12.6; READ_RAW refuses a channel number
above 23. The revision letter is a free value (log 13), and that a closing timer's count stops at 65,535 is DEDUCED (log 36)
(R12, R13, R144, R186, R192, R194). -/
def Obligations.SnapshotsAreAnsweredAndChangeNothing : Prop :=
  (∀ (s : State) (tag : Byte), s.taking →
    exec (.identify tag []) s = .next (s.replied 0x01 tag
      (b2 0x00A7 ++ b2 0x2440 ++ b1 (65 + Config.revision.val) ++ s.jc.factory ++ b1 1 ++
        (match s.li.vehicleId with
          | some chars => b1 1 ++ chars
          | none => b1 0))) ∧
    exec (.getState tag []) s = .next (s.replied 0x02 tag
      (b1 s.sc.opState.code ++ b1 (if s.sc.service then 1 else 0) ++ b1 s.li.reports.length ++ b1 s.fm.index.length ++
        b1 ((if s.fm.full then 1 else 0) + (if s.fm.clearPending then 2 else 0)) ++
        b1 (if s.jc.reclaim = .idle then 0 else 1) ++ b1 s.jc.queue.length ++ b1 s.ci.motion.code ++
        b1 s.ci.supply.code ++ b2 s.sc.cycle ++ b4 s.sc.opSeconds))) ∧
  (∀ (s : State) (tag : Byte), s.taking →
    (s.sc.opState = .run →
      exec (.readDoors tag []) s = .next (s.replied 0x25 tag (b1 (if s.dm.doorsClear then 1 else 0) ++
        (itemsFrom 4 0 4).flatMap (fun w => b1 (doorwayCode s.dm.doorway[w])) ++
        (itemsFrom 8 0 8).flatMap fun i => s.dm.leaves[i].entry i.val)) ∧
      (∀ i : Fin 8, (s.dm.leaves[i].entry i.val).length = 12) ∧
      ∀ i : Fin 8, let l := s.dm.leaves[i]
        (l.cfg = none → l.entry i.val = b1 i.val ++ List.replicate 11 0) ∧
        ∀ c : LeafCfg, l.cfg = some c →
          let reading (slot : Fin 5) : List Byte :=
            match l.input slot, l.readings[slot] with
            | none, _ => b1 3
            | some _, .inactive => b1 0
            | some _, .active => b1 1
            | some _, .unknown => b1 2
          l.entry i.val = b1 i.val ++
            flagBits [true, l.lockFault, l.slow, l.cycleMark, l.travelT.isSome, l.lockT.isSome, l.closingT.isSome] ++
            b1 c.doorway.val ++ b1 l.state.code ++ reading slotClosed ++ reading slotLocked ++ reading slotOpenEnd ++
            reading slotEdge ++ reading slotRelease ++ b2 (min 65535 (l.closingT.getD 0 / 10)) ++
            flagBits [l.conds.notSecure, l.conds.released, l.conds.obstructed, l.conds.fault]) ∧
    (s.sc.opState = .run ∨ s.sc.opState = .config → s.sc.service = true →
      (∀ ch : Fin 24,
        (s.cu.lastResult[ch] = none →
          exec (.readRaw tag (b1 ch.val)) s = .next (s.replied 0x36 tag (b1 ch.val ++
            b1 (if s.cu.lastRef.isSome then 4 else 0) ++ [0, 0, 0, 0, 0] ++ b2 (s.cu.lastRef.getD 0)))) ∧
        ∀ r : ResultRecord, s.cu.lastResult[ch] = some r →
          exec (.readRaw tag (b1 ch.val)) s = .next (s.replied 0x36 tag (b1 ch.val ++
            b1 (1 + (if r.saturated then 2 else 0) + (if s.cu.lastRef.isSome then 4 else 0)) ++ b2 r.count ++
            b1 r.level.code ++ b1 r.gate.val ++ b1 r.origin.code ++ b2 (s.cu.lastRef.getD 0)))) ∧
      ∀ b : Byte, 24 ≤ b.toNat → exec (.readRaw tag [b]) s = .next (s.refused tag [0x04])))

/-! ## Configuration requests -/

/-- SET_CHANNEL in CONFIG stores every admitted configuration of a wired channel exactly as carried, and the channel begins
again: INIT, no class, no value, no reading. Kind OFF clears it (its gate code and confirm count to 0 by the model's choice,
log 40). An undefined kind is refused BAD_VALUE, then a payload that its band table does not fill BAD_LENGTH, then every
other payload that carries no admitted configuration BAD_VALUE (R48). With no WIRING presence held nothing else changes: that
no STATUS report is placed is DEDUCED (log 18), and so is the absence that the FM is handed where one is held (log 19). -/
def Obligations.SetChannelStoresAWiredConfiguration : Prop :=
  ∀ (s : State) (tag : Byte) (ch : Fin 24), s.taking → s.sc.opState = .config → s.fm.present (.wiring ch) = false →
    let begun (c : WiredCfg) (status : Status) : Wired :=
      { cfg := c, candidate := none, candCount := 0, confirmed := none, wiring := .none, status, value := none,
        reading := none, switched := false, limited := false }
    let stored (x : Wired) : State := { s with ci := { s.ci with wired := s.ci.wired.set ch x } }
    (∀ c : WiredCfg, c.admitted ch →
      exec (.setChannel tag (c.payload ch)) s = .next ((stored (begun c .init)).replied 0x11 tag [])) ∧
    (∀ rest : List Byte, rest.length ≤ 35 →
      exec (.setChannel tag (b1 ch.val ++ b1 0 ++ rest)) s =
        .next ((stored (begun .cleared .off)).replied 0x11 tag [])) ∧
    ∀ (kind : Byte) (rest : List Byte), rest.length ≤ 35 →
      let p := b1 ch.val ++ [kind] ++ rest
      let filled := ∃ n : Nat, n ≤ 5 ∧ rest[8]? = some (BitVec.ofNat 8 n) ∧ rest.length = 10 + 5 * n
      (3 ≤ kind.toNat → exec (.setChannel tag p) s = .next (s.refused tag [0x04])) ∧
      (kind = 1 ∨ kind = 2 → ¬ filled → exec (.setChannel tag p) s = .next (s.refused tag [0x03])) ∧
      (kind = 1 ∨ kind = 2 → filled → (∀ c : WiredCfg, c.admitted ch → p ≠ c.payload ch) →
        exec (.setChannel tag p) s = .next (s.refused tag [0x04]))

/-- SET_CHANNEL in CONFIG stores every admitted configuration of a network channel exactly as carried, and the channel begins
again: INIT or OFF, value absent, timers stopped. Kind OFF leaves minimum, maximum, freshness and lost time at 0 by the
model's choice (log 40). A wrong kind or range is refused BAD_VALUE and a wrong length BAD_LENGTH, in that order; a channel
above 39 is refused BAD_VALUE whatever the rest (R49, R190). With no NETLOST presence held nothing else changes: that no
STATUS report is placed is DEDUCED (log 18), and so is the absence handed where one is held (log 19). -/
def Obligations.SetChannelStoresANetworkConfiguration : Prop :=
  ∀ (s : State) (tag : Byte) (n : Fin 16), s.taking → s.sc.opState = .config →
    let begun (c : NetCfg) (status : Status) : Net :=
      { cfg := c, value := none, status, freshT := none, lostT := none, initT := none, limited := false }
    let stored (x : Net) : State := { s with ci := { s.ci with net := s.ci.net.set n x } }
    (s.fm.present (.netlost n) = false →
      (∀ c : NetCfg, c.admitted →
        exec (.setChannel tag (c.payload n)) s = .next ((stored (begun c .init)).replied 0x11 tag [])) ∧
      ∀ rest : List Byte, rest.length ≤ 35 →
        exec (.setChannel tag (b1 (24 + n.val) ++ b1 0 ++ rest)) s =
          .next ((stored (begun .cleared .off)).replied 0x11 tag [])) ∧
    (∀ (kind : Byte) (rest : List Byte), rest.length ≤ 35 →
      (kind ≠ 0 → kind ≠ 3 →
        exec (.setChannel tag (b1 (24 + n.val) ++ [kind] ++ rest)) s = .next (s.refused tag [0x04])) ∧
      (kind = 3 → rest.length ≠ 6 →
        exec (.setChannel tag (b1 (24 + n.val) ++ [kind] ++ rest)) s = .next (s.refused tag [0x03]))) ∧
    (∀ c : NetCfg, c.network = true → isS16 c.min → isS16 c.max → c.fresh ≤ 255 → c.lost ≤ 255 →
      ¬ (c.min ≤ c.max ∧ 5 ≤ c.fresh ∧ 1 ≤ c.lost) →
      exec (.setChannel tag (c.payload n)) s = .next (s.refused tag [0x04])) ∧
    ∀ (b : Byte) (rest : List Byte), 40 ≤ b.toNat → 1 ≤ rest.length → rest.length ≤ 36 →
      exec (.setChannel tag (b :: rest)) s = .next (s.refused tag [0x04])

/-- SET_GAUGE in CONFIG stores every admitted record exactly as carried, or unconfigures the gauge, the curve kept, the
pointer UNPOWERED at 0 and the target at rest, and refuses BAD_VALUE what carries no admitted record; SET_CURVE stores 0 or 2
to 12 points exactly and changes nothing else, and refuses a gauge number or an x out of range (R72, R73). -/
def Obligations.SetGaugeAndSetCurveStoreTheGauge : Prop :=
  (∀ (s : State) (tag : Byte) (g : Fin 8), s.taking → s.sc.opState = .config →
    let begun (r : Option GaugeRec) (target : Nat) : Gauge :=
      { record := r, curve := s.ge[g].curve, display := none, range := .none, target, acc := 0, filtered := 0, pos := 0,
        pointer := .unpowered, resume := none, homingPhase := .none, stopPulses := 0, sweepPhase := .none,
        testPos := none, testDue := false, restarts := 0, homed := false, limited := false, updateMs := 0, steps := 0 }
    (∀ r : GaugeRec, r.admitted →
      exec (.setGauge tag (r.payload g)) s =
        .next (({ s with ge := s.ge.set g (begun (some r) r.rest) } : State).replied 0x14 tag [])) ∧
    exec (.setGauge tag (b1 g.val)) s =
      .next (({ s with ge := s.ge.set g (begun none 0) } : State).replied 0x14 tag [])) ∧
  (∀ (s : State) (tag : Byte), s.taking → s.sc.opState = .config →
    (∀ p : List Byte, p.length = 13 → (∀ (g : Fin 8) (r : GaugeRec), r.admitted → p ≠ r.payload g) →
      exec (.setGauge tag p) s = .next (s.refused tag [0x04])) ∧
    ∀ b : Byte, 8 ≤ b.toNat → exec (.setGauge tag [b]) s = .next (s.refused tag [0x04])) ∧
  (∀ (s : State) (tag : Byte), s.taking → s.sc.opState = .config →
    (∀ (g : Fin 8) (ps : List CurvePoint), curveAdmitted ps →
      exec (.setCurve tag (curvePayload g ps)) s =
        .next (({ s with ge := s.ge.set g { s.ge[g] with curve := ps } } : State).replied 0x15 tag [])) ∧
    (∀ (g : Fin 8) (ps : List CurvePoint), ps.length ≠ 1 → ps.length ≤ 12 →
      (∀ q ∈ ps, -(2 ^ 31) ≤ q.x ∧ q.x < 2 ^ 31) → (∃ q ∈ ps, q.x < -32768 ∨ 200000 < q.x) →
      exec (.setCurve tag (curvePayload g ps)) s = .next (s.refused tag [0x04])) ∧
    ∀ (b : Byte) (rest : List Byte), 8 ≤ b.toNat → acceptsLength 0x15 (rest.length + 1) →
      exec (.setCurve tag (b :: rest)) s = .next (s.refused tag [0x04]))

/-- SET_WARNING in CONFIG stores every admitted definition, of all twelve condition types, exactly as carried, or
unconfigures the warning; the instance is at rest and nothing else changes. A warning number above 63 and an undefined
condition type are refused BAD_VALUE, then a length that does not fit the type BAD_LENGTH, then what carries no admitted
definition BAD_VALUE (R93). -/
def Obligations.SetWarningStoresTheDefinition : Prop :=
  ∀ (s : State) (tag : Byte) (w : Fin 64), s.taking → s.sc.opState = .config →
    let rest : WarnInst := { state := .inactive, cond := false, delayT := none, alertT := none, act := none }
    (∀ d : WarnDef, d.admitted →
      exec (.setWarning tag (d.payload w)) s =
        .next (({ s with wm := { s.wm with defs := s.wm.defs.set w (some d),
                                           inst := s.wm.inst.set w rest } } : State).replied 0x16 tag [])) ∧
    exec (.setWarning tag (b1 w.val)) s =
      .next (({ s with wm := { s.wm with defs := s.wm.defs.set w none,
                                         inst := s.wm.inst.set w rest } } : State).replied 0x16 tag []) ∧
    (∀ (b : Byte) (p : List Byte), 64 ≤ b.toNat → acceptsLength 0x16 (p.length + 1) →
      exec (.setWarning tag (b :: p)) s = .next (s.refused tag [0x04])) ∧
    ∀ (type : Byte) (p : List Byte), acceptsLength 0x16 (p.length + 2) →
      let n := type.toNat
      let fits := p.length = 10 + if n = 1 ∨ n = 2 then 5 else if n ≤ 8 then 1 else 0
      let q := b1 w.val ++ [type] ++ p
      (12 ≤ n → exec (.setWarning tag q) s = .next (s.refused tag [0x04])) ∧
      (n < 12 → ¬ fits → exec (.setWarning tag q) s = .next (s.refused tag [0x03])) ∧
      (n < 12 → fits → (∀ d : WarnDef, d.admitted → q ≠ d.payload w) →
        exec (.setWarning tag q) s = .next (s.refused tag [0x04]))

/-- SET_REFERENCE, SET_MOTION, SET_LAMP and SET_PATTERN in CONFIG store what they carry, exactly, and change nothing else;
every value outside its range is refused BAD_VALUE (R50, R66, R113, R114, R191). -/
def Obligations.SmallSettingsAreStored : Prop :=
  (∀ (s : State) (tag : Byte) (r lo hi : Nat), s.taking → s.sc.opState = .config → r < 65536 → lo < 65536 →
    hi < 65536 →
    (500 ≤ r ∧ r ≤ 5000 ∧ 4 ≤ lo ∧ lo < hi ∧ hi ≤ 65534 →
      exec (.setReference tag (referencePayload r lo hi)) s =
        .next (({ s with ci := { s.ci with rRef := r, nRefMin := lo, nRefMax := hi } } : State).replied 0x10 tag [])) ∧
    (¬ (500 ≤ r ∧ r ≤ 5000 ∧ 4 ≤ lo ∧ lo < hi ∧ hi ≤ 65534) →
      exec (.setReference tag (referencePayload r lo hi)) s = .next (s.refused tag [0x04]))) ∧
  (∀ (s : State) (tag ch mv st : Byte), s.taking → s.sc.opState = .config →
    (∀ h : ch.toNat < 40, 5 ≤ mv.toNat → mv.toNat ≤ 100 → st.toNat ≤ 99 →
      exec (.setMotion tag [ch, mv, st]) s =
        .next (({ s with ci := { s.ci with motionChannel := some ⟨ch.toNat, h⟩, moveThr := mv.toNat,
                                            stopThr := st.toNat } } : State).replied 0x13 tag [])) ∧
    (40 ≤ ch.toNat ∨ mv.toNat < 5 ∨ 100 < mv.toNat ∨ 99 < st.toNat →
      exec (.setMotion tag [ch, mv, st]) s = .next (s.refused tag [0x04]))) ∧
  (∀ (s : State) (tag : Byte), s.taking → s.sc.opState = .config →
    (∀ (l : Fin 24) (use : Bool),
      exec (.setLamp tag (b1 l.val ++ b1 (if use then 1 else 0))) s =
        .next (({ s with ao := { s.ao with used := s.ao.used.set l use } } : State).replied 0x17 tag [])) ∧
    (∀ a b : Byte, 24 ≤ a.toNat ∨ 2 ≤ b.toNat → exec (.setLamp tag [a, b]) s = .next (s.refused tag [0x04])) ∧
    (∀ (n : Fin 8) (q : Pattern), q.rep ≤ 15 →
      exec (.setPattern tag (q.payload n)) s =
        .next (({ s with ao := { s.ao with patterns := s.ao.patterns.set n (some q) } } : State).replied 0x18 tag [])) ∧
    (∀ n : Fin 8, exec (.setPattern tag (b1 n.val)) s =
      .next (({ s with ao := { s.ao with patterns := s.ao.patterns.set n none } } : State).replied 0x18 tag [])) ∧
    (∀ b : Byte, 8 ≤ b.toNat → exec (.setPattern tag [b]) s = .next (s.refused tag [0x04])) ∧
    ∀ n tone env rep : Byte, 8 ≤ n.toNat ∨ 2 ≤ tone.toNat ∨ 16 ≤ env.toNat ∨ 16 ≤ rep.toNat →
      exec (.setPattern tag [n, tone, env, rep]) s = .next (s.refused tag [0x04]))

/-- SET_LEAF in CONFIG stores every admitted configuration exactly as carried, or unconfigures the leaf: the leaf begins
again UNKNOWN with no timer, mark or flag, its statistics kept, and the other leaves stay; the doorways it left and joins are
derived again; what carries no admitted configuration is refused BAD_VALUE (R126, R134). That all five slots of the new leaf
count as mapped until the next START is the model's choice (log 17). -/
def Obligations.SetLeafStoresTheConfiguration : Prop :=
  ∀ (s : State) (tag : Byte) (ignored : Fin 5 → Byte) (i : Fin 8), s.taking → s.sc.opState = .config →
    let begun (c : Option LeafCfg) : Leaf :=
      { cfg := c, counted := Vector.replicate 5 true, state := .unknown, readings := Vector.replicate 5 .unknown,
        travelT := none, lockT := none, closingT := none, cycleMark := false, lockFault := false, slow := false,
        inputFault := false, releaseRose := false }
    let stored (c : Option LeafCfg) (t : State) : Prop :=
      t.dm.leaves = s.dm.leaves.set i (begun c) ∧ t.dm.stats = s.dm.stats ∧ t.dm.doorsClear = s.dm.doorsClear ∧
        (∀ w : Fin 4, if some w = s.dm.leaves[i].cfg.map (·.doorway) ∨ some w = c.map (·.doorway)
          then t.dm.doorway[w] = t.dm.worst w else t.dm.doorway[w] = s.dm.doorway[w]) ∧
        (∀ d, c = some d → t.dm.doorway[d.doorway] = some .unknown) ∧
        t.li.transmitter = .answering (syncByte :: frameChars (0x19 + 0x80) tag []) ∧ t.sc = s.sc ∧ t.cu = s.cu ∧
        t.ci = s.ci ∧ t.ge = s.ge ∧ t.wm = s.wm ∧ t.ao = s.ao ∧ t.jc = s.jc ∧ t.pending = s.pending
    (∀ c : LeafCfg, c.admitted → ∃ t, exec (.setLeaf tag (c.payload ignored i)) s = .next t ∧ stored (some c) t) ∧
    (∃ t, exec (.setLeaf tag (b1 i.val)) s = .next t ∧ stored none t) ∧
    (∀ p : List Byte, p.length = 16 →
      (∀ (other : Fin 5 → Byte) (j : Fin 8) (c : LeafCfg), c.admitted → p ≠ c.payload other j) →
      exec (.setLeaf tag p) s = .next (s.refused tag [0x04])) ∧
    ∀ b : Byte, 8 ≤ b.toNat → exec (.setLeaf tag [b]) s = .next (s.refused tag [0x04])

/-- SET_SCAN and SET_FREEZE in CONFIG replace the whole scan list and freeze set with the items carried, in order, duplicates
included, whatever ignored operands hold, and change nothing else; an item out of range refuses the request and the list
stays (R34, R154). -/
def Obligations.SetScanAndSetFreezeReplaceTheirList : Prop :=
  (∀ (s : State) (tag : Byte), s.taking → s.sc.opState = .config →
    (∀ chs : List (Fin 24), chs.length ≤ 40 →
      exec (.setScan tag (chs.flatMap fun ch => b1 ch.val)) s =
        .next (({ s with cu := { s.cu with scan := chs } } : State).replied 0x12 tag [])) ∧
    ∀ p : List Byte, p.length ≤ 40 → (∃ b ∈ p, 24 ≤ b.toNat) →
      exec (.setScan tag p) s = .next (s.refused tag [0x04])) ∧
  (∀ (s : State) (tag ignored : Byte), s.taking → s.sc.opState = .config →
    (∀ sels : List Selector, sels.length ≤ 4 →
      exec (.setFreeze tag (sels.flatMap (·.payload ignored))) s =
        .next (({ s with fm := { s.fm with freeze := sels } } : State).replied 0x1A tag [])) ∧
    ∀ (sels : List Selector) (a b : Byte), sels.length ≤ 3 →
      5 ≤ a.toNat ∨ (a = 0 ∧ 8 ≤ b.toNat) ∨ (a = 1 ∧ 40 ≤ b.toNat) →
      exec (.setFreeze tag (sels.flatMap (·.payload ignored) ++ [a, b])) s = .next (s.refused tag [0x04]))

/-! ## What a hand-over of channels does to doors and warnings -/

namespace Sys2Proof.Machine

/-- The reading of a door input from its channel and the reading it had (R127). A VALID switch without a reading does not
occur (log 25). -/
def LeafInput.takes (x : LeafInput) (v : ChanView) (old : Reading) : Reading :=
  match v.status with
  | .valid =>
    if x.ch.val < 24 then
      match v.reading, x.inverted with
      | some .active, false | some .inactive, true => .active
      | some .active, true | some .inactive, false => .inactive
      | none, _ => .unknown
    else if decide (v.value.getD 0 = 0) = x.inverted then .active else .inactive
  | .held => old
  | .off | .init | .fault | .lost => .unknown

/-- A channel that a leaf's configuration names has changed its effective status, value or reading (R128). -/
def State.leafHanded (s t : State) (c : LeafCfg) : Prop :=
  ∃ (slot : Fin 5) (x : LeafInput), c.inputs[slot] = some x ∧ s.ci.eff x.ch ≠ t.ci.eff x.ch

/-- A leaf's readings are those it had, brought up to date for the channels that have changed (R127). -/
def State.takesReadings (s t : State) (i : Fin 8) : Prop :=
  ∀ slot : Fin 5, t.dm.leaves[i].readings[slot] =
    match s.dm.leaves[i].input slot with
    | some x =>
      if s.ci.eff x.ch = t.ci.eff x.ch then s.dm.leaves[i].readings[slot]
      else x.takes (t.ci.eff x.ch) s.dm.leaves[i].readings[slot]
    | none => s.dm.leaves[i].readings[slot]

/-- A reading that the leaf needs is UNKNOWN (R128 line 1). -/
def Leaf.unseen (l : Leaf) : Prop :=
  l.readings[slotClosed] = .unknown ∨ (l.hasLock = true ∧ l.readings[slotLocked] = .unknown) ∨
    (l.hasRelease = true ∧ l.readings[slotRelease] = .unknown)

/-- The leaf's RELEASE reads ACTIVE (R128 line 2). -/
def Leaf.onRelease (l : Leaf) : Prop := l.hasRelease = true ∧ l.readings[slotRelease] = .active

/-- "Per inputs" (R130). -/
def Leaf.shut (l : Leaf) : LeafState :=
  if l.hasLock = true ∧ l.readings[slotLocked] = .active then .locked else .closed

/-- Re-derivation (R129). -/
def Leaf.standing (l : Leaf) : LeafState := if l.readings[slotClosed] = .active then l.shut else .opened

/-- The input lines of R130 for a movement state, in order: whether each applies and where it leads. `now slot r` says that
the slot is tested and reads `r`. -/
def Leaf.lines (l : Leaf) (now : Fin 5 → Reading → Bool) : LeafState → List (Bool × LeafState)
  | .locked => [(now slotClosed .inactive, .opening),
      (now slotLocked .inactive && decide (l.readings[slotClosed] = .active), .closed)]
  | .closed => [(now slotClosed .inactive, .opening), (now slotLocked .active && l.hasLock, .locked)]
  | .opening | .closing => [(now slotClosed .active, l.shut), (now slotEdge .active, .obstructed),
      (now slotOpenEnd .active, .opened)]
  | .opened => [(now slotClosed .active, l.shut), (now slotOpenEnd .inactive && l.hasOpenEnd, .closing)]
  | .obstructed => [(now slotClosed .active, l.shut), (now slotEdge .inactive, .opening)]
  | .released | .unknown => []

/-- The first line of a state's table that applies (R130). -/
def Leaf.firstLine (l : Leaf) (now : Fin 5 → Reading → Bool) (st : LeafState) : Option LeafState :=
  ((l.lines now st).find? (·.1)).map (·.2)

/-- The entry test of a state, repeated, enters these states and then settles (R130). -/
def Leaf.entryTest (l : Leaf) : LeafState → List LeafState → Prop
  | st, [] => l.firstLine (fun slot r => decide (l.readings[slot] = r)) st = none
  | st, e :: es => l.firstLine (fun slot r => decide (l.readings[slot] = r)) st = some e ∧ l.entryTest e es

/-- The states that one evaluation enters, in order, from leaf `a` on the readings of `b` (R128). -/
def Leaf.enters (a b : Leaf) (es : List LeafState) : Prop :=
  (b.unseen → es = if a.state = .unknown then [] else [.unknown]) ∧
  (¬ b.unseen → b.onRelease → es = if a.state = .released then [] else [.released]) ∧
  (¬ b.unseen → ¬ b.onRelease → a.state = .unknown ∨ a.state = .released → es = [b.standing]) ∧
  (¬ b.unseen → ¬ b.onRelease → a.state ≠ .unknown → a.state ≠ .released →
    match b.firstLine (fun slot r => decide (b.readings[slot] = r ∧ a.readings[slot] ≠ r)) a.state with
    | some e => ∃ rest, es = e :: rest ∧ b.entryTest e rest
    | none => es = [])

/-- Cycle mark and cycle count after the entry to a state (R132). -/
def Leaf.counts (l : Leaf) (m : Bool × Nat) : LeafState → Bool × Nat
  | .unknown => (false, m.2)
  | .opening | .opened | .closing | .obstructed | .released => (true, m.2)
  | .locked => (false, if m.1 then min 4294967295 (m.2 + 1) else m.2)
  | .closed => if l.hasLock then m else (false, if m.1 then min 4294967295 (m.2 + 1) else m.2)

/-- One hand-over of channels, in RUN or SHUTDOWN, at leaf `i`: without a change at a channel it names it stays; else it is
evaluated once, with the states of R128 to R130, the timers of R131, the counts of R132, the closing time of R133, doorway
and DOORS_CLEAR of R134 and R135, and the presences of R137. -/
def State.leafTakes (s t : State) (i : Fin 8) : Prop :=
  let a := s.dm.leaves[i]
  let b := t.dm.leaves[i]
  let d := s.dm.stats[i]
  let e := t.dm.stats[i]
  (a.cfg = none → b = a ∧ e = d) ∧
  ∀ c : LeafCfg, a.cfg = some c →
    (¬ s.leafHanded t c → b = a ∧ e = d) ∧
    (s.leafHanded t c → b.cfg = a.cfg ∧ b.counted = a.counted ∧ s.takesReadings t i ∧
      ∃ es : List LeafState, a.enters b es ∧ b.state = (es.getLast?).getD a.state ∧
        (b.cycleMark, e.cycles) = es.foldl b.counts (a.cycleMark, d.cycles) ∧
        e.obstructions = (if .obstructed ∈ es then min 65535 (d.obstructions + es.count .obstructed)
          else d.obstructions) ∧
        (es = [] → b.travelT = a.travelT ∧ b.lockT = a.lockT ∧ b.closingT = a.closingT) ∧
        (es ≠ [] →
          b.travelT = (if b.state = .opening ∧ b.hasOpenEnd = false then some (100 * c.travel) else none) ∧
          b.lockT = (if b.state = .closed ∧ b.hasLock = true then some (100 * c.lockTo) else none) ∧
          b.closingT = (if b.state = .closing then some 0 else none) ∧
          t.dm.doorway[c.doorway] = t.dm.worst c.doorway ∧
          (t.dm.doorsClear = true ↔ s.sc.opState = .run ∧ ∀ (j : Fin 8) (k : LeafCfg), t.dm.leaves[j].cfg = some k →
            t.dm.leaves[j].state = .locked ∨ (t.dm.leaves[j].state = .closed ∧ t.dm.leaves[j].hasLock = false))) ∧
        b.lockFault = (a.lockFault && decide (.locked ∉ es)) ∧
        (let m := min 65535 (a.closingT.getD 0 / 10)
         let slow := 10 * c.closing < m
         let measured := a.state = .closing ∧ (es = [.closed] ∨ es = [.locked])
         (measured → b.slow = decide slow ∧ e.slow = (if slow then min 65535 (d.slow + 1) else d.slow) ∧
            e.mean = some (match d.mean with
              | some v => ((v : Int) + ((m : Int) - v).tdiv 8).toNat
              | none => m)) ∧
         (¬ measured → .closing ∉ es → b.slow = a.slow ∧ e.slow = d.slow ∧ e.mean = d.mean)) ∧
        (b.inputFault = true ↔ b.state = .unknown ∧ ∃ (slot : Fin 5) (x : LeafInput),
          (slot = slotClosed ∨ slot = slotLocked ∨ slot = slotRelease) ∧ b.input slot = some x ∧
            b.readings[slot] = .unknown ∧ ((t.ci.eff x.ch).status = .fault ∨ (t.ci.eff x.ch).status = .lost)) ∧
        (b.lockFault ≠ a.lockFault → t.fm.present (.doorLock i) = b.lockFault) ∧
        (b.inputFault ≠ a.inputFault → t.fm.present (.doorInput i) = b.inputFault))

/-- What a condition that reads one thing makes of a change of that thing, from the value it had (R95, R96): none where it
has not changed, or not been handed. A door condition is taken for a set of one leaf. -/
def State.condTakes (s t : State) (c : Condition) (old : Bool) : Option Bool :=
  let given (changed : Prop) [Decidable changed] (now : Bool) : Option Bool := if changed then some now else none
  let door (ls : BitVec 8) (p : DoorCond → Bool) : Option Bool :=
    given (∃ l : Fin 8, ls.getLsbD l.val = true ∧ t.dm.leaves[l].conds ≠ s.dm.leaves[l].conds)
      (decide (∃ l : Fin 8, ls.getLsbD l.val = true ∧ p t.dm.leaves[l].conds = true))
  match c with
  | .switchActive ch =>
    let x := t.ci.eff ch
    given (s.ci.eff ch ≠ x) (decide ((x.status = .valid ∨ x.status = .held) ∧
      if ch.val < 24 then x.reading = some .active else x.value.getD 0 ≠ 0))
  | .channelFault ch => given (s.ci.eff ch ≠ t.ci.eff ch) (decide ((t.ci.eff ch).status = .fault))
  | .channelLost ch => given (s.ci.eff ch ≠ t.ci.eff ch) (decide ((t.ci.eff ch).status = .lost))
  | .valueBelow g limit h => given (s.ge[g].display ≠ t.ge[g].display)
      (match t.ge[g].display with
        | some y => decide (y < limit) || (old && decide (y < limit + h))
        | none => false)
  | .valueAbove g limit h => given (s.ge[g].display ≠ t.ge[g].display)
      (match t.ge[g].display with
        | some y => decide (limit < y) || (old && decide (limit - h < y))
        | none => false)
  | .doorNotSecure ls => door ls (·.notSecure)
  | .doorReleased ls => door ls (·.released)
  | .doorObstructed ls => door ls (·.obstructed)
  | .doorFault ls => door ls (·.fault)
  | .supplyLow => given (s.ci.supply ≠ t.ci.supply) (decide (t.ci.supply = .low))
  | .supplyHigh => given (s.ci.supply ≠ t.ci.supply) (decide (t.ci.supply = .high))
  | .motionUnknown => given (s.ci.motion ≠ t.ci.motion) (decide (t.ci.motion = .unknown))

/-- A condition reads one thing, and the WM has been handed that thing as it stands in `s`. -/
def State.readsOneThing (s : State) : Condition → Prop
  | .doorNotSecure ls | .doorReleased ls | .doorObstructed ls | .doorFault ls =>
    ∃ l : Fin 8, ls = BitVec.ofNat 8 (2 ^ l.val) ∧ s.dm.conds[l] = some s.dm.leaves[l].conds
  | .switchActive _ | .channelFault _ | .channelLost _ | .valueBelow _ _ _ | .valueAbove _ _ _ | .supplyLow | .supplyHigh
  | .motionUnknown => True

/-- One hand-over, in RUN, at the instance of a definition that reads one thing and whose gating does not see that thing and
the motion state change together: it stays where nothing it reads has changed; else it has the new condition value and, with
that and the gating, starts, stops, loses or regains its standing (R97 to R99), with the presence of R109. That an instance
is asked by what it is, not by what it was, is DEDUCED (log 26). -/
def State.warnTakes (s t : State) (w : Fin 64) : Prop :=
  ∀ (d : WarnDef) (v : View), s.wm.defs[w] = some d → s.wm.view = some v → s.readsOneThing d.cond →
    let x := s.wm.inst[w]
    let y := t.wm.inst[w]
    let now := s.condTakes t d.cond x.cond
    let moved := d.gating ≠ .always ∧ s.ci.motion ≠ t.ci.motion
    now = none ∨ d.cond = .motionUnknown ∨ ¬ moved →
    let cond := now.getD x.cond
    let motion := if s.ci.motion = t.ci.motion then v.motion else t.ci.motion
    let gated := match d.gating with
      | .always => true
      | .moving => decide (motion ≠ .standstill)
      | .standstill => decide (motion = .standstill)
    (now = none → ¬ moved → y = x) ∧
    (now.isSome ∨ moved →
      y = (match x.state, cond && gated with
        | .inactive, true =>
          if d.delay = 0 then { x with cond, state := .active, delayT := none, alertT := none, act := y.act }
          else { x with cond, state := .delaying, delayT := some (100 * d.delay) }
        | .retained, true => { x with cond, state := .active, delayT := none, alertT := none, act := y.act }
        | .delaying, false => { x with cond, state := .inactive, delayT := none }
        | .active, false =>
          { x with cond, state := if d.latching then .retained else .inactive, delayT := none, alertT := none }
        | .acked, false => { x with cond, state := .inactive, delayT := none, alertT := none }
        | _, _ => { x with cond }) ∧
      (y.state = .active → x.state ≠ .active → y.act.isSome = true ∧
        (d.faultLink = true → t.fm.present (.warning w) = true)) ∧
      (x.state = .active ∨ x.state = .acked → y.state = .retained ∨ y.state = .inactive → d.faultLink = true →
        t.fm.present (.warning w) = false))

/-- The display value and range indication that a curve of ascending x gives an input (R75). -/
def curveGives (curve : List CurvePoint) (x y : Int) (range : RangeInd) : Prop :=
  (curve = [] → y = min 32767 x ∧ range = if 32767 < x then .above else .none) ∧
  (∀ p, curve.head? = some p → x < p.x → y = p.y ∧ range = .below) ∧
  (∀ p, curve.getLast? = some p → p.x < x → y = p.y ∧ range = .above) ∧
  (∀ p ∈ curve, x = p.x → y = p.y ∧ range = .none) ∧
  ∀ (before after : List CurvePoint) (p q : CurvePoint), curve = before ++ p :: q :: after → p.x ≤ x → x < q.x →
    let n := (x - p.x) * (q.y - p.y)
    y = p.y + n.sign * ((2 * (n.natAbs : Int) + (q.x - p.x)) / (2 * (q.x - p.x))) ∧ range = .none

/-- One hand-over of channels, in RUN or SHUTDOWN, at a gauge: display value, range indication, target and limited flag stay
where the source's effective view and REFERENCE_FAULT have not changed, and where the source is HELD; they are derived by R74
to R76 otherwise, with LIMITED where the flag is newly set. -/
def State.gaugeTakes (s t : State) (g : Fin 8) : Prop :=
  let x := s.ge[g]
  let y := t.ge[g]
  let stays := y.display = x.display ∧ y.range = x.range ∧ y.target = x.target ∧ y.limited = x.limited
  y.record = x.record ∧ y.curve = x.curve ∧ y.pos = x.pos ∧ (x.record = none → stays) ∧
  ∀ r : GaugeRec, x.record = some r →
    let v := t.ci.eff r.source
    let handed := s.ci.eff r.source ≠ v ∨ s.ci.refFault ≠ t.ci.refFault
    (¬ handed ∨ (t.ci.refFault = false ∧ v.status = .held) → stays) ∧
    (handed → t.ci.refFault = true ∨ v.status = .init ∨ v.status = .fault ∨ v.status = .lost →
      y.display = none ∧ y.range = .none ∧ y.target = r.rest ∧ y.limited = x.limited) ∧
    ∀ n : Int, handed → t.ci.refFault = false → v.status = .valid → v.value = some n →
      x.curve.Pairwise (fun a b => a.x < b.x) → ∃ d : Int, y.display = some d ∧ curveGives x.curve n d y.range ∧
        (y.target : Int) = (if d ≤ r.vMin then 0 else if r.vMax ≤ d then (r.span : Int)
          else ((d - r.vMin) * r.span + (r.vMax - r.vMin) / 2) / (r.vMax - r.vMin)) ∧
        y.limited = (x.limited || decide (d < r.vMin ∨ r.vMax < d)) ∧
        (x.limited = false → d < r.vMin ∨ r.vMax < d →
          s.hasPlaced t [(.gaugeLimited, g.val, some (BitVec.ofInt 16 d))])

/-- A changed motion state is reported and handed over: one other than STANDSTILL ends the session with its tests, the
reports in the order MOTION, TEST_ENDED, SERVICE_ENDED; the session stays open otherwise (R67, R182, R184). A STOP warning of
the same hand-over may have ended the tests before, with its own cause (R185; the order is free, log 10). -/
def State.handsMotion (s t : State) : Prop :=
  let motion : Event × Nat × Option Word16 := (.motion, 0, some (BitVec.ofNat 16 t.ci.motion.code))
  (t.ci.motion = s.ci.motion → t.sc.service = s.sc.service) ∧
  (t.ci.motion ≠ s.ci.motion → s.hasPlaced t [motion] ∧
    (t.ci.motion = .standstill → t.sc.service = s.sc.service) ∧
    (t.ci.motion ≠ .standstill → t.sc.service = false ∧
      (s.sc.service = true → t.testsInForce = false ∧ s.hasPlaced t [motion, (.serviceEnded, 0, some 2)] ∧
        (s.testsInForce = true → s.hasPlaced t [motion, (.testEnded, 0, some 2), (.serviceEnded, 0, some 2)] ∨
          s.hasPlaced t [(.testEnded, 0, some 6), (.serviceEnded, 0, some 2)]))))

/-- The view of a wired channel that another block has, by its own status, value and reading (R62). -/
def Wired.shows (w : Wired) (v : ChanView) : Prop :=
  v.status = w.status ∧ v.value = w.value.map Int.ofNat ∧ v.reading = w.reading

/-- Two wired channels are a pair, the first its primary (R62). -/
abbrev Interp.paired (c : Interp) (p q : Fin 24) : Prop :=
  p < q ∧ c.wired[p].cfg.partner = some q ∧ c.wired[q].cfg.partner = some p

end Sys2Proof.Machine

/-! ## Running requests -/

namespace Sys2Proof.Machine

/-- The last value that some pairs carry for a network channel. -/
def lastPosted (ps : List (Byte × Int)) (n : Fin 16) : Option Int :=
  ((ps.filter fun q => decide (q.1.toNat = 24 + n.val)).getLast?).map (·.2)

/-- The blocks and counters that a running request at the CI, the WM or the AO leaves alone. -/
def State.keepsController (s t : State) : Prop :=
  t.pending = s.pending ∧ t.cu = s.cu ∧ t.sc.opState = s.sc.opState ∧ t.sc.cycle = s.sc.cycle ∧
    t.sc.opSeconds = s.sc.opSeconds ∧ t.sc.ignOn = s.sc.ignOn ∧ t.sc.watch = s.sc.watch

end Sys2Proof.Machine

/-- POST_NETWORK in RUN applies the last value carried for each channel of kind NETWORK, limited to the channel's range:
VALID, the freshness timer restarted, the other timers stopped, the limited flag set where the value was moved; every other
channel stays as it was, and the reply counts the channels applied (R64, R68). A change of the designated channel moves the
motion state and the standstill timer by the VALID rows of R67, and a motion state other than STANDSTILL ends the session
(R182). The change is handed over once: each gauge of a changed source derives (R74 to R76), each leaf that names a changed
channel is evaluated (R127 to R137), and each warning that reads what has changed is asked anew (R95 to R99, R109). -/
def Obligations.PostNetworkAppliesTheLastValues : Prop :=
  ∀ (s : State) (tag : Byte) (ps : List (Byte × Int)), s.taking → s.sc.opState = .run → 1 ≤ ps.length →
    ps.length ≤ 16 → (∀ q ∈ ps, isS16 q.2) →
    ∃ t, exec (.postNetwork tag (postPayload ps)) s = .next t ∧
      (∀ n : Fin 16, let x := s.ci.net[n]
        t.ci.net[n] =
          match if x.cfg.network then lastPosted ps n else none with
          | some v =>
            let y := if v < x.cfg.min then x.cfg.min else if x.cfg.max < v then x.cfg.max else v
            { x with value := some y, status := .valid, freshT := some (10 * x.cfg.fresh), lostT := none, initT := none,
                     limited := x.limited || decide (y ≠ v) }
          | none => x) ∧
      t.li.transmitter = .answering (syncByte :: frameChars (0x20 + 0x80) tag
        (b1 ((List.finRange 16).countP fun n => s.ci.net[n].cfg.network && (lastPosted ps n).isSome))) ∧
      t.ci = { s.ci with net := t.ci.net, motion := t.ci.motion, standstillT := t.ci.standstillT } ∧
      s.keepsController t ∧
      (let moves (m : MotionState) (timer : Option Nat) : Prop := t.ci.motion = m ∧ t.ci.standstillT = timer
       let old := s.ci.motion
       let timer := s.ci.standstillT
       ((∀ n : Fin 16, s.ci.motionChannel ≠ some (netCh n)) → moves old timer) ∧
       ∀ n : Fin 16, s.ci.motionChannel = some (netCh n) →
         let same := t.ci.net[n].status = s.ci.net[n].status ∧ t.ci.net[n].value = s.ci.net[n].value
         (same → moves old timer) ∧
         (¬ same → t.ci.net[n].status = .valid ∧ ∀ x : Int, t.ci.net[n].value = some x →
           ((s.ci.moveThr : Int) ≤ x → moves .moving none) ∧
           (x < s.ci.moveThr → (s.ci.stopThr : Int) ≤ x →
             if old = .standstill then moves .standstill timer else moves .moving none) ∧
           (x < s.ci.moveThr → x < s.ci.stopThr →
             if old = .standstill then moves .standstill timer else moves old (some (timer.getD 1000))))) ∧
      s.handsMotion t ∧ (∀ g : Fin 8, s.gaugeTakes t g) ∧ (∀ i : Fin 8, s.leafTakes t i) ∧ ∀ w : Fin 64, s.warnTakes t w

/-- REQUEST_CONVERSION in RUN queues the channel with its host mark at the tail, or marks the entry that holds it and answers
MERGED; an OFF channel or a number above 23 is refused BAD_VALUE; nothing else changes (R36, R37). -/
def Obligations.RequestConversionQueuesTheChannel : Prop :=
  ∀ (s : State) (tag : Byte) (ch : Fin 24), s.taking → s.sc.opState = .run →
    (s.ci.wired[ch].cfg.kind ≠ .off → (∀ e ∈ s.cu.queue, e.ch ≠ ch) →
      exec (.requestConversion tag (b1 ch.val)) s = .next
        (({ s with cu := { s.cu with queue := s.cu.queue ++ [{ ch, hostMark := true }] } } : State).replied 0x21 tag
          [1, 0])) ∧
    (∀ (before after : List PrioEntry) (e : PrioEntry), s.ci.wired[ch].cfg.kind ≠ .off →
      s.cu.queue = before ++ e :: after → e.ch = ch → (∀ x ∈ before ++ after, x.ch ≠ ch) →
      exec (.requestConversion tag (b1 ch.val)) s = .next
        (({ s with cu := { s.cu with queue := before ++ { ch, hostMark := true } :: after } } : State).replied 0x21 tag
          [1, 1])) ∧
    (s.ci.wired[ch].cfg.kind = .off → exec (.requestConversion tag (b1 ch.val)) s = .next (s.refused tag [0x04])) ∧
    ∀ b : Byte, 24 ≤ b.toNat → exec (.requestConversion tag [b]) s = .next (s.refused tag [0x04])

namespace Sys2Proof.Machine

/-- The re-alert time of R102, in ms: that of a STOP definition with an interval other than 0. -/
def WarnDef.reAlertMs (d : WarnDef) : Option Nat :=
  if d.priority = .stop ∧ d.reAlert ≠ 0 then some (1000 * d.reAlert) else none

/-- The reports of `t` are those of `s` with one WARNING report of a new state placed (R101). -/
def State.reportsWarning (s t : State) (w : Fin 64) (d : WarnDef) (st : WarnState) : Prop :=
  t.li.reports = (s.li.place .warningState w.val (some (BitVec.ofNat 16 (st.code + 256 * d.priority.code)))).reports

end Sys2Proof.Machine

/-- ACKNOWLEDGE with a number, by the table of R106: an ACTIVE acknowledgeable instance enters ACKED with its re-alert timer
started where R102 applies; a RETAINED one enters INACTIVE and leaves the list; an ACKED one whose timer runs restarts it;
every other answers NOT_PENDING; an unconfigured warning or a number above 63 is BAD_VALUE. Without a number it acts on the
first candidate of the list, or answers NONE (R105; the state field of NONE is DEDUCED, log 22). -/
def Obligations.AcknowledgementsFollowTheTable : Prop :=
  (∀ (s : State) (tag : Byte) (w : Fin 64), s.taking → s.sc.opState = .run →
    (∀ d, s.wm.defs[w] = some d →
      (s.wm.inst[w].state = .active → d.ackable = true → ∃ t, exec (.acknowledge tag (b1 w.val)) s = .next t ∧
        t.wm = { s.wm with inst := s.wm.inst.set w { s.wm.inst[w] with state := .acked, alertT := d.reAlertMs } } ∧
        t.li.transmitter = .answering (syncByte :: frameChars (0x28 + 0x80) tag (b1 2 ++ b1 w.val ++ b1 3)) ∧
        s.reportsWarning t w d .acked ∧ s.keepsController t ∧ t.ci = s.ci ∧ t.ge = s.ge ∧ t.dm = s.dm ∧ t.fm = s.fm ∧
        t.jc = s.jc) ∧
      (s.wm.inst[w].state = .retained → ∃ t, exec (.acknowledge tag (b1 w.val)) s = .next t ∧
        t.wm = { s.wm with
          inst := s.wm.inst.set w { s.wm.inst[w] with state := .inactive, delayT := none, alertT := none }
          list := s.wm.list.filter (· ≠ w) } ∧
        t.li.transmitter = .answering (syncByte :: frameChars (0x28 + 0x80) tag (b1 2 ++ b1 w.val ++ b1 0)) ∧
        s.reportsWarning t w d .inactive ∧ s.keepsController t ∧ t.ci = s.ci ∧ t.ge = s.ge ∧ t.dm = s.dm ∧
        t.fm = s.fm ∧ t.jc = s.jc) ∧
      (s.wm.inst[w].state = .acked → s.wm.inst[w].alertT.isSome →
        exec (.acknowledge tag (b1 w.val)) s = .next
          (({ s with wm := { s.wm with inst := s.wm.inst.set w { s.wm.inst[w] with alertT := d.reAlertMs } } }
            : State).replied 0x28 tag (b1 5 ++ b1 w.val ++ b1 3))) ∧
      ((s.wm.inst[w].state = .active ∧ d.ackable = false) ∨
          (s.wm.inst[w].state = .acked ∧ s.wm.inst[w].alertT = none) ∨ s.wm.inst[w].state = .delaying ∨
          s.wm.inst[w].state = .inactive →
        exec (.acknowledge tag (b1 w.val)) s =
          .next (s.replied 0x28 tag (b1 4 ++ b1 w.val ++ b1 s.wm.inst[w].state.code)))) ∧
    (s.wm.defs[w] = none → exec (.acknowledge tag (b1 w.val)) s = .next (s.refused tag [0x04])) ∧
    ∀ b : Byte, 64 ≤ b.toNat → exec (.acknowledge tag [b]) s = .next (s.refused tag [0x04])) ∧
  (∀ (s : State) (tag : Byte), s.taking → s.sc.opState = .run →
    let candidate (w : Fin 64) : Prop :=
      (s.wm.inst[w].state = .active ∨ s.wm.inst[w].state = .retained) ∧ ∃ d, s.wm.defs[w] = some d ∧ d.ackable = true
    (∀ (before after : List (Fin 64)) (w : Fin 64), s.wm.list = before ++ w :: after → candidate w →
      (∀ x ∈ before, ¬ candidate x) →
      ∃ t, exec (.acknowledge tag (b1 w.val)) s = .next t ∧ exec (.acknowledge tag []) s = .next t) ∧
    ((∀ x ∈ s.wm.list, ¬ candidate x) →
      exec (.acknowledge tag []) s = .next (s.replied 0x28 tag (b1 3 ++ b1 0xFF ++ b1 0))))

/-- SET_CHIME_FLOOR in RUN replaces the floor, which the AO takes and derives its claimant from; no instance, list entry or
lamp changes; a level above 3 is BAD_VALUE. CLEAR_LIMITS in RUN clears the limited flags of the 40 channels and the eight
gauges and nothing else (R68, R90, R108, R117, R118). -/
def Obligations.FloorAndLimitsAreSetInRun : Prop :=
  (∀ (s : State) (tag : Byte), s.taking → s.sc.opState = .run →
    (∀ floor : Priority, ∃ t, exec (.setChimeFloor tag (b1 floor.code)) s = .next t ∧
      t.wm = { s.wm with floor } ∧ t.ao.floorCopy = floor ∧ t.ao.claimant = t.claimantNow ∧
      t.ao.drive = s.ao.drive ∧ t.ao.listCopy = s.ao.listCopy ∧
      (s.ao.source = t.ao.claimant ∨ s.chimeTone ≠ none → t.ao.source = s.ao.source ∧ t.ao.phase = s.ao.phase) ∧
      (s.ao.source ≠ t.ao.claimant → s.chimeTone = none →
        t.ao.source = t.ao.claimant ∧ t.ao.phase = 0 ∧ t.ao.burst = 0) ∧
      t.li = (s.replied 0x29 tag []).li ∧ s.keepsController t ∧ t.sc = s.sc ∧ t.ci = s.ci ∧ t.ge = s.ge ∧
      t.dm = s.dm ∧ t.fm = s.fm ∧ t.jc = s.jc) ∧
    ∀ b : Byte, 4 ≤ b.toNat → exec (.setChimeFloor tag [b]) s = .next (s.refused tag [0x04])) ∧
  (∀ (s : State) (tag : Byte), s.taking → s.sc.opState = .run →
    ∃ t : State, exec (.clearLimits tag []) s = .next (t.replied 0x2A tag []) ∧
      (∀ ch : Fin 24, t.ci.wired[ch] = { s.ci.wired[ch] with limited := false }) ∧
      (∀ n : Fin 16, t.ci.net[n] = { s.ci.net[n] with limited := false }) ∧
      (∀ g : Fin 8, t.ge[g] = { s.ge[g] with limited := false }) ∧
      t = { s with ci := { s.ci with wired := t.ci.wired, net := t.ci.net }, ge := t.ge })

/-! ## Operating states -/

namespace Sys2Proof.Machine

/-- A definition is usable (R94). -/
def State.usable (s : State) (d : WarnDef) : Prop :=
  (match d.cond with
    | .switchActive ch => s.ci.hasReading ch = true
    | .valueBelow g _ _ | .valueAbove g _ _ => s.ge[g].record.isSome
    | .channelFault ch => ∃ w : Fin 24, wiredCh w = ch ∧ s.ci.wired[w].cfg.kind ≠ .off
    | .channelLost ch => ∃ n : Fin 16, netCh n = ch ∧ s.ci.net[n].cfg.network = true
    | .doorNotSecure ls | .doorReleased ls | .doorObstructed ls | .doorFault ls =>
      ∀ l : Fin 8, ls.getLsbD l.val = true → s.dm.leaves[l].cfg.isSome
    | .supplyLow | .supplyHigh | .motionUnknown => True) ∧
  (∀ l, d.lamp = some l → s.ao.used[l] = true) ∧ ∀ p, d.pattern = some p → s.ao.patterns[p].isSome

/-- The item examined under number `n` by check `k` of R18 fails it. -/
def State.startFails (s : State) (k n : Nat) : Prop :=
  match k with
  | 1 => n = 0 ∧ s.cu.scan = []
  | 2 => ∃ ch, s.cu.scan[n]? = some ch ∧ s.ci.wired[ch].cfg.kind = .off
  | 3 => ∃ ch : Fin 24, ch.val = n ∧ s.ci.wired[ch].cfg.kind ≠ .off ∧ ch ∉ s.cu.scan
  | 4 => ∃ ch : Fin 24, ch.val = n ∧ s.ci.wired[ch].cfg.kind ≠ .off ∧
      ¬ s.ci.wired[ch].cfg.thresholds.Pairwise (· < ·)
  | 5 => ∃ ch p : Fin 24, ch.val = n ∧ s.ci.wired[ch].cfg.partner = some p ∧
      ¬ (s.ci.wired[p].cfg.partner = some ch ∧ s.ci.wired[p].cfg.kind = s.ci.wired[ch].cfg.kind)
  | 6 => n = 0 ∧ ¬ ∃ x : Fin 16, s.ci.motionChannel = some (netCh x) ∧ s.ci.net[x].cfg.network = true ∧
      s.ci.stopThr < s.ci.moveThr
  | 7 => ∃ (g : Fin 8) (r : GaugeRec), g.val = n ∧ s.ge[g].record = some r ∧
      ¬ (s.ci.hasValue r.source = true ∧ r.vMin < r.vMax ∧ r.rest ≤ r.span ∧ s.ge[g].curve.length ≠ 1 ∧
        s.ge[g].curve.length ≤ 12 ∧ s.ge[g].curve.Pairwise fun a b => a.x < b.x)
  | 8 => ∃ (w : Fin 64) (d : WarnDef), w.val = n ∧ s.wm.defs[w] = some d ∧ ¬ s.usable d
  | 9 => ∃ (l : Fin 8) (c : LeafCfg), l.val = n ∧ s.dm.leaves[l].cfg = some c ∧
      ¬ ∃ i, c.inputs[slotClosed] = some i ∧ s.ci.hasReading i.ch = true
  | 10 => ∃ sel, s.fm.freeze[n]? = some sel ∧
      ¬ (match sel with
        | .gaugeValue g => s.ge[g].record.isSome
        | .channelValue ch => s.ci.hasValue ch = true
        | .supply | .speed | .doorWord => True)
  | _ => False

/-- The identifier that R18 names for an item: its class code and number; for a partner pair the lower of the two. -/
def State.startItem (s : State) (k n : Nat) : List Nat :=
  match k with
  | 1 => [1, 0]
  | 2 => [1, n]
  | 3 | 4 => [2, n]
  | 5 => [2, min n (match item? 24 n with
      | some ch => ((s.ci.wired[ch].cfg.partner).map (·.val)).getD n
      | none => n)]
  | 6 => [3, 0]
  | 7 => [4, n]
  | 8 => [5, n]
  | 9 => [6, n]
  | _ => [7, n]

/-- The configuration passes START: no item fails a check. -/
def State.startable (s : State) : Prop := ∀ k n, ¬ s.startFails k n

/-- The condition is TRUE on the WM's view of RUN entry (R110): every channel INIT, every display value INVALID, the motion
state STANDSTILL, every leaf not secure, and the supply state as it is held. -/
def State.trueAtEntry (s : State) : Condition → Bool
  | .supplyLow => decide (s.ci.supply = .low)
  | .supplyHigh => decide (s.ci.supply = .high)
  | .doorNotSecure ls => decide (ls ≠ 0)
  | .switchActive _ | .valueBelow _ _ _ | .valueAbove _ _ _ | .channelFault _ | .channelLost _ | .doorReleased _
  | .doorObstructed _ | .doorFault _ | .motionUnknown => false

/-- The instance of a warning is qualified on the view of RUN entry (R97, R110). -/
def State.qualifiedAtEntry (s : State) (w : Fin 64) : Bool :=
  match s.wm.defs[w] with
  | some d => s.trueAtEntry d.cond && decide (d.gating ≠ .moving)
  | none => false

/-- The instance enters ACTIVE at RUN entry itself (R98). -/
def State.activeAtEntry (s : State) (w : Fin 64) : Bool :=
  s.qualifiedAtEntry w && decide ((s.wm.defs[w]).map (·.delay) = some 0)

/-- The warnings that enter ACTIVE at RUN entry, in ascending number. -/
def State.startsAtEntry (s : State) : List (Fin 64) := (List.finRange 64).filter s.activeAtEntry

/-- The activation sequence that a warning takes at RUN entry (R100). -/
def State.actAtEntry (s : State) (w : Fin 64) : Word32 :=
  s.wm.counter + BitVec.ofNat 32 (s.startsAtEntry.filter fun x => decide (x < w)).length

/-- The warning hands its presence to the FM at RUN entry (R109). -/
def State.linkedAtEntry (s : State) (w : Fin 64) : Bool :=
  s.activeAtEntry w && decide ((s.wm.defs[w]).map (·.faultLink) = some true)

/-- A warning's definition names a chime pattern. -/
def State.chimes (s : State) (w : Fin 64) : Bool := ((s.wm.defs[w]).bind (·.pattern)).isSome

/-- What RUN entry leaves (R20, R42, R70, R81, R110, R124, R142, R159): `cycle` is the settled cycle number. The WM and the FM
stand as the view and the presence view of RUN entry have them: each instance at rest but for those qualified there, each
tracker ABSENT but for the supply's and for those of fault-linked warnings that enter ACTIVE at once. -/
structure State.EntersRun (s t : State) (newCycle : Bool) : Prop where
  run      : t.sc.opState = .run ∧ t.sc.watch = .quiet ∧ t.sc.newCycle = false ∧ t.sc.service = s.sc.service
  cycle    : t.sc.cycle = if newCycle then min 65535 (s.sc.cycle + 1) else s.sc.cycle
  seconds  : t.sc.opSeconds = s.sc.opSeconds ∧ t.sc.remainderMs = s.sc.remainderMs
  wired    : ∀ ch : Fin 24, let w := s.ci.wired[ch]; let w' := t.ci.wired[ch]
    w'.cfg = w.cfg ∧ w'.value = w.value ∧ w'.reading = w.reading ∧ w'.limited = false ∧ w'.switched = false ∧
      (w.cfg.kind ≠ .off → w'.status = .init ∧ w'.candidate = none ∧ w'.confirmed = none ∧ w'.wiring = .none)
  net      : ∀ n : Fin 16, let x := s.ci.net[n]; let x' := t.ci.net[n]
    x'.cfg = x.cfg ∧ x'.value = x.value ∧ x'.limited = false ∧
      (x.cfg.network = true → x'.status = .init ∧ x'.freshT = none ∧ x'.lostT = none ∧
        x'.initT = some (10 * x.cfg.fresh + 100 * x.cfg.lost))
  judged   : t.ci.failCount = 0 ∧ t.ci.refFault = false ∧ t.ci.judgement = none ∧ t.ci.motion = .standstill ∧
    t.ci.standstillT = none ∧ t.ci.supply = s.ci.supply ∧ t.ci.supplyMv = s.ci.supplyMv
  gauges   : ∀ g : Fin 8, let x := t.ge[g]
    match s.ge[g].record with
    | some r => x.record = some r ∧ x.curve = s.ge[g].curve ∧ x.restarts = 0 ∧ x.limited = false ∧
        x.display = none ∧ x.range = .none ∧ x.target = r.rest ∧
        (if s.ci.supply = .low then x.pointer = .hold ∧ x.resume = some .homing
          else x.pointer = .homing ∧ x.pos = r.span ∧ x.homingPhase = .countdown ∧ x.stopPulses = r.span / 8 ∧
            x.updateMs = 0)
    | none => x = s.ge[g]
  leaves   : ∀ l : Fin 8, s.dm.leaves[l].cfg.isSome → let x := t.dm.leaves[l]
    x.cfg = s.dm.leaves[l].cfg ∧ x.state = .unknown ∧ (∀ i : Fin 5, x.readings[i] = .unknown) ∧ x.travelT = none ∧
      x.lockT = none ∧ x.closingT = none ∧ x.lockFault = false ∧ x.slow = false ∧ x.cycleMark = false
  doors    : t.dm.stats = s.dm.stats ∧
    (t.dm.doorsClear = true ↔ ∀ l : Fin 8, s.dm.leaves[l].cfg = none) ∧
    ∀ (l : Fin 8) (c : LeafCfg), s.dm.leaves[l].cfg = some c → t.dm.doorway[c.doorway] = some .unknown
  lamps    : t.ao.bulb = some 3000 ∧ t.ao.genRunning = true ∧ ∀ l : Fin 24, t.lampLit l = true
  tests    : (∀ l : Fin 24, t.ao.overrides[l] = none) ∧ t.ao.chimeTest = none ∧ (∀ w : Fin 64, t.ao.finished[w] = none)
  chime    : t.ao.phase = 0 ∧ t.ao.genQ = 0 ∧ t.ao.burst = 0 ∧ t.ao.floorCopy = .notice ∧
    t.ao.listCopy = t.wm.list.map (fun w => { w, state := .active, act := s.actAtEntry w }) ∧
    t.ao.claimant = (match t.wm.list.find? s.chimes with
      | some w => .owner w (s.actAtEntry w)
      | none => .none) ∧
    ((∀ (w : Fin 64) (d : WarnDef) (p : Fin 8), s.wm.defs[w] = some d → d.pattern = some p → s.ao.patterns[p].isSome) →
      t.ao.source = match s.startsAtEntry.find? s.chimes with
        | some w => .owner w (s.actAtEntry w)
        | none => .none)
  floor    : t.wm.floor = .notice
  view     : t.wm.view = some { chan := Vector.replicate 40 { status := .init, value := none, reading := none }
                                display := Vector.replicate 8 none
                                door := Vector.replicate 8
                                  { notSecure := true, released := false, obstructed := false, fault := false }
                                supply := s.ci.supply, motion := .standstill }
  inst     : ∀ w : Fin 64, t.wm.inst[w] =
    match s.wm.defs[w] with
    | none => { state := .inactive, cond := false, delayT := none, alertT := none, act := none }
    | some d =>
      { state := if s.activeAtEntry w then .active else if s.qualifiedAtEntry w then .delaying else .inactive
        cond := s.trueAtEntry d.cond
        delayT := if s.qualifiedAtEntry w ∧ ¬ s.activeAtEntry w then some (100 * d.delay) else none
        alertT := none
        act := if s.activeAtEntry w then some (s.actAtEntry w) else none }
  list     : t.wm.counter = s.wm.counter + BitVec.ofNat 32 s.startsAtEntry.length ∧
    t.wm.list = [Priority.stop, .caution, .advisory, .notice].flatMap fun p =>
      s.startsAtEntry.reverse.filter fun w => decide ((s.wm.defs[w]).map (·.priority) = some p)
  path     : t.cu.runCount = 0 ∧ t.cu.pos = .reference ∧
    t.cu.path = (if s.cu.path = .unpowered then .settling else s.cu.path) ∧
    (s.cu.path = .ready → ∃ c, t.cu.inFlight = some c ∧ c.target = .reference ∧ c.origin = .pass) ∧
    (s.cu.path ≠ .ready → t.cu.inFlight = none)
  latched  : ∀ ch : Fin 24, let on := s.ci.wired[ch].cfg.kind = .switch ∧ s.ci.wired[ch].cfg.watch = true
    (t.cu.comparator[ch] ≠ .unpowered ↔ on) ∧
      t.cu.latch[ch] = (if s.ci.wired[ch].cfg.kind = .switch ∧ s.ci.wired[ch].cfg.watch = true
        then s.cu.latch[ch] else .armed)
  queue    : t.cu.queue = ((List.finRange 24).filter fun ch => decide (t.cu.latch[ch] = .set)).map
    fun ch => { ch, hostMark := false }
  aged     : ∀ e ∈ t.fm.index, t.sc.cycle - e.lastCycle < 40
  index    : ((∀ w : Fin 64, s.linkedAtEntry w = false) →
      t.fm.index = s.fm.index.filter (fun e => decide (t.sc.cycle - e.lastCycle < 40)) ∧ t.fm.full = s.fm.full ∧
        t.jc = s.jc) ∧
    (s.fm.index.length + (s.startsAtEntry.filter s.linkedAtEntry).length ≤ 32 → t.fm.full = s.fm.full ∧
      (∀ e ∈ s.fm.index, t.sc.cycle - e.lastCycle < 40 → (∀ w : Fin 64, e.src = .warning w → s.linkedAtEntry w = false) →
        e ∈ t.fm.index) ∧
      ∀ w : Fin 64, s.linkedAtEntry w = true → ∃ e ∈ t.fm.index, e.src = .warning w)
  trackers : ∀ src : FaultSource,
    let supply := (src = .system 1 ∧ s.ci.supply = .low) ∨ (src = .system 2 ∧ s.ci.supply = .high)
    let linked := ∃ w : Fin 64, src = .warning w ∧ s.linkedAtEntry w = true
    (t.fm.present src = true ↔ supply ∨ linked) ∧
      (supply → t.fm.tracker src = { state := .pending, timer := some 5000 }) ∧
      (linked → t.fm.tracker src = { state := .confirmed, timer := none }) ∧
      (¬ supply → ¬ linked → t.fm.tracker src = { state := .absent, timer := none })
  kept     : t.pending = s.pending ∧ t.cu.scan = s.cu.scan ∧ t.wm.defs = s.wm.defs ∧ t.fm.freeze = s.fm.freeze ∧
    t.fm.clearPending = s.fm.clearPending ∧ t.cu.lastResult = s.cu.lastResult ∧ t.ao.used = s.ao.used ∧
    t.ao.patterns = s.ao.patterns

/-- The pass element after one, for a list of `n` channels (R35). -/
def PassElement.following (n : Nat) : PassElement → PassElement
  | .reference => .supply
  | .supply => if n = 0 then .reference else .entry 0
  | .entry i => if n ≤ i + 1 then .reference else .entry (i + 1)

/-- A conversion whose gate has been open for its window and `spent` quarter milliseconds more. -/
def State.gateEnds (s : State) (c : Conversion) (spent : Nat) : Prop :=
  s.cu.inFlight = some c ∧ c.phase = .gate ∧ s.cu.elapsedQ = 8 * 2 ^ c.gate.val + spent

/-- What a conversion of the watch pass, and the evaluation of the doors at its end, leave alone (R28, R43, R71, R139). -/
def State.keepsWatch (s t : State) : Prop :=
  t = { s with li := t.li, sc := t.sc, cu := t.cu, ci := t.ci, dm := t.dm, fm := t.fm, jc := t.jc
               freeCount := t.freeCount } ∧
    t.li = { s.li with reports := t.li.reports, nextSeq := t.li.nextSeq } ∧
    t.sc = { s.sc with watch := t.sc.watch } ∧
    t.cu = { s.cu with inFlight := t.cu.inFlight, elapsedQ := t.cu.elapsedQ, pos := t.cu.pos, runCount := t.cu.runCount
                       latch := t.cu.latch, lastResult := t.cu.lastResult, lastRef := t.cu.lastRef } ∧
    t.ci = { s.ci with wired := t.ci.wired, passCount := t.ci.passCount, judgement := t.ci.judgement
                       failCount := t.ci.failCount, refFault := t.ci.refFault, supplyMv := t.ci.supplyMv
                       supply := t.ci.supply } ∧
    (∀ ch : Fin 24, t.ci.wired[ch].cfg = s.ci.wired[ch].cfg) ∧
    t.dm = { s.dm with leaves := t.dm.leaves, doorway := t.dm.doorway } ∧
    (∀ i : Fin 8, t.dm.leaves[i].cfg = s.dm.leaves[i].cfg ∧ t.dm.leaves[i].counted = s.dm.leaves[i].counted) ∧
    t.fm.freeze = s.fm.freeze ∧ t.fm.clearPending = s.fm.clearPending

/-- What entry to PARKED leaves (R27, R43, R139); the rest of the part stays. -/
structure State.EntersParked (s t : State) : Prop where
  parked   : t.sc.opState = .parked ∧ t.sc.watch = .quiet ∧ t.sc.newCycle = true ∧ t.sc.ignPending = false
  kept     : t.sc.cycle = s.sc.cycle ∧ t.sc.opSeconds = s.sc.opSeconds ∧ t.sc.ignOn = s.sc.ignOn ∧ t.ge = s.ge ∧
    t.wm = s.wm ∧ t.ao = s.ao ∧ t.fm = s.fm ∧ t.jc = s.jc ∧ t.pending = s.pending ∧
    t.ci = { s.ci with standstillT := none }
  conv     : t.cu.inFlight = none ∧ t.cu.queue = [] ∧ t.cu.runCount = 0 ∧ t.cu.pos = .reference ∧
    t.cu.path = .unpowered ∧ t.cu.scan = s.cu.scan ∧ t.cu.lastResult = s.cu.lastResult
  latched  : ∀ ch : Fin 24, (t.cu.comparator[ch] ≠ .unpowered ↔ ch ∈ t.sc.watchSet) ∧ t.cu.latch[ch] = .armed
  leaves   : ∀ l : Fin 8, let x := t.dm.leaves[l]
    x.cfg = s.dm.leaves[l].cfg ∧ x.state = s.dm.leaves[l].state ∧ x.readings = s.dm.leaves[l].readings ∧
      x.cycleMark = s.dm.leaves[l].cycleMark ∧ x.lockFault = s.dm.leaves[l].lockFault ∧ x.travelT = none ∧
      x.lockT = none ∧ x.closingT = none
  doors    : t.dm.stats = s.dm.stats ∧ t.dm.doorway = s.dm.doorway ∧ t.dm.doorsClear = s.dm.doorsClear

/-- A record with some content waits in the commit queue or is being programmed. -/
def State.holdsRecord (s : State) (c : Content) : Prop :=
  c ∈ s.jc.queue ∨ ∃ n, s.jc.inFlight = some (.program { seq := n, content := c })

/-- Where the gauges, warnings, lamps and doors stand once RUN has been left. -/
def State.outsideRun (t : State) : Prop :=
  t.sc.service = false ∧ (∀ w : Fin 64, t.wm.inst[w].state = .inactive ∧ t.wm.inst[w].delayT = none ∧
    t.wm.inst[w].alertT = none) ∧ t.wm.list = [] ∧ t.ao.bulb = none ∧ (∀ l : Fin 24, t.ao.drive[l] = .dark) ∧
    t.dm.doorsClear = false ∧ t.ao.listCopy = [] ∧ t.ao.claimant = .none ∧
    (t.ao.source = .none → t.chimeTone = none ∧ t.ao.genRunning = false ∧ t.ao.phase = 0) ∧
    (t.ao.source ≠ .none → t.chimeTone ≠ none)

/-- At the end of RUN the WM hands the FM the absence of each fault-linked warning that was ACTIVE or ACKED: a source that was
present becomes absent with its tracker ABSENT, and nothing else of the FM changes (R109, R111, R149). -/
def State.handsWarningAbsences (s t : State) : Prop :=
  t.fm = { s.fm with presence := t.fm.presence, trackers := t.fm.trackers } ∧
  ∀ src : FaultSource,
    let gone := ∃ (w : Fin 64) (d : WarnDef), src = .warning w ∧ s.wm.defs[w] = some d ∧ d.faultLink = true ∧
      (s.wm.inst[w].state = .active ∨ s.wm.inst[w].state = .acked)
    (gone → t.fm.present src = false ∧
      (s.fm.present src = true → t.fm.tracker src = { state := .absent, timer := none })) ∧
    (¬ gone → t.fm.present src = s.fm.present src) ∧
    (¬ gone ∨ s.fm.present src = false → t.fm.tracker src = s.fm.tracker src)

end Sys2Proof.Machine

/-- START judges the ten checks of R18 in order and, within each, the items in ascending number: the first item that fails is
named in the BAD_CONFIG refusal, and the part is otherwise as it was. That a partner pair named from one side only fails at
the channel that names the other is the model's choice (log 37). -/
def Obligations.StartNamesTheFirstFailingItem : Prop :=
  ∀ (s : State) (tag : Byte) (k n : Nat), s.taking → s.sc.opState = .config → s.startFails k n →
    (∀ k' n', s.startFails k' n' → k < k' ∨ (k = k' ∧ n ≤ n')) →
    exec (.start tag []) s = .next (s.refused tag (0x09 :: s.startItem k n))

/-- Every way into RUN makes the RUN entry of R20 in every block: an accepted START with the ignition ON, ignition ON
confirmed in PARKED outside a running watch pass, a completed SHUTDOWN with ignition pending, which counts a new cycle, and
the end of a watch pass with ignition pending, after the doors have been evaluated (R29). The warnings' instances and list
and the chime stand at rest but for what the view of RUN entry starts at once (R98, R110, R124), the trackers ABSENT but for
the supply's and those that such a warning confirms (R159). The service flag is off in all of them (R180). That the view of
RUN entry holds no value and no reading of a channel is the model's choice (log 49). -/
def Obligations.EveryRunEntrySettlesTheBlocks : Prop :=
  ∀ s : State, s.sc.service = false →
    (∀ tag : Byte, s.taking → s.sc.opState = .config → s.startable → s.sc.ignOn = true →
      ∃ t, exec (.start tag []) s = .next t ∧ s.EntersRun t s.sc.newCycle ∧
        t.li.transmitter = .answering (syncByte :: frameChars (0x08 + 0x80) tag [])) ∧
    (s.sc.ignRaw = true → s.sc.ignOn = false → 50 ≤ s.sc.steadyMs → s.sc.opState = .parked → s.sc.watch ≠ .waking →
      ∃ t, exec .ignitionOnConfirmed s = .next t ∧ s.EntersRun t s.sc.newCycle ∧ t.sc.ignOn = true ∧
        t.li.transmitter = s.li.transmitter) ∧
    (s.sc.opState = .shutdown → (∀ g : Fin 8, s.ge[g].pointer = .unpowered) → s.jc.queue = [] →
      (s.jc.inFlight = none ∨ s.jc.inFlight = some .erase) → s.jc.reclaim = .idle → s.sc.ignPending = true →
      ∃ t, exec .shutdownComplete s = .next t ∧ s.EntersRun t true ∧ t.li.transmitter = s.li.transmitter) ∧
    ∀ (c : Conversion) (periods pin bias spent : Nat), s.gateEnds c spent → c.origin = .pass → s.sc.opState = .parked →
      s.cu.pos.following s.sc.watchSet.length = .reference → s.sc.ignPending = true →
      (∀ g : Fin 8, s.ge[g].pointer = .unpowered) →
      ∃ u t : State, exec (.conversionComplete periods pin bias) s = .next t ∧ s.keepsWatch u ∧ u.sc = s.sc ∧
        u.EntersRun t s.sc.newCycle ∧ t.sc.ignOn = s.sc.ignOn ∧ t.li.transmitter = s.li.transmitter

/-- Both ways into PARKED leave it quiet with conversion ended and only the watch set's comparators powered: an accepted
START with the ignition OFF, which fixes the watch set of R27, and a completed SHUTDOWN without ignition pending. -/
def Obligations.EveryParkedEntryIsQuiet : Prop :=
  ∀ s : State,
    (∀ tag : Byte, s.taking → s.sc.opState = .config → s.startable → s.sc.ignOn = false →
      ∃ t, exec (.start tag []) s = .next t ∧ s.EntersParked t ∧
        t.li.transmitter = .answering (syncByte :: frameChars (0x08 + 0x80) tag []) ∧
        t.sc.watchSet.Pairwise (· < ·) ∧
        ∀ ch : Fin 24, ch ∈ t.sc.watchSet ↔
          s.ci.wired[ch].cfg.kind = .switch ∧ s.ci.wired[ch].cfg.watch = true ∧
            ∃ (l : Fin 8) (c : LeafCfg) (slot : Fin 5) (i : LeafInput), s.dm.leaves[l].cfg = some c ∧
              c.watched = true ∧ (slot = slotClosed ∨ slot = slotRelease) ∧ c.inputs[slot] = some i ∧
              i.ch = wiredCh ch) ∧
    (s.sc.opState = .shutdown → (∀ g : Fin 8, s.ge[g].pointer = .unpowered) → s.jc.queue = [] →
      (s.jc.inFlight = none ∨ s.jc.inFlight = some .erase) → s.jc.reclaim = .idle → s.sc.ignPending = false →
      ∃ t, exec .shutdownComplete s = .next t ∧ s.EntersParked t ∧ t.sc.watchSet = s.sc.watchSet ∧
        t.li.transmitter = s.li.transmitter)

/-- Ignition OFF confirmed in RUN enters SHUTDOWN: the session over, the CYCLE and DOOR_STATS records queued, warnings, lamps
and DOORS_CLEAR off, the absence of each fault-linked warning handed over, the chime without claimant and falling silent after
its on-period, every powered gauge turned to parking, conversions going on (R16, R22, R86, R109, R111, R124, R139). -/
def Obligations.IgnitionOffEntersShutdown : Prop :=
  ∀ s : State, s.outputsSound → s.sc.opState = .run → s.sc.ignRaw = false → s.sc.ignOn = true →
    500 ≤ s.sc.steadyMs →
    ∃ t, exec .ignitionOffConfirmed s = .next t ∧ t.sc.opState = .shutdown ∧ t.sc.ignOn = false ∧
      t.sc.ignPending = false ∧ t.sc.cycleInterval = 0 ∧ t.sc.cycle = s.sc.cycle ∧ t.sc.opSeconds = s.sc.opSeconds ∧
      t.sc.newCycle = s.sc.newCycle ∧ t.outsideRun ∧ t.holdsRecord (.cycle s.sc.cycle s.sc.opSeconds) ∧
      t.holdsRecord (.doorStats s.dm.stats) ∧ t.cu = s.cu ∧ t.ci = { s.ci with standstillT := none } ∧
      t.dm.leaves = s.dm.leaves ∧ t.dm.stats = s.dm.stats ∧ t.wm.defs = s.wm.defs ∧ t.wm.floor = s.wm.floor ∧
      s.handsWarningAbsences t ∧
      (∀ g : Fin 8, t.ge[g].pos = s.ge[g].pos ∧
        t.ge[g].pointer = (match s.ge[g].pointer with
          | .unpowered => .unpowered
          | .hold => .hold
          | .homing | .sweep | .tracking | .test | .parking => .parking) ∧
        (s.ge[g].pointer = .hold → t.ge[g].resume = some .parking)) ∧
      t.li.transmitter = s.li.transmitter ∧ t.pending = s.pending

/-- The confirmations of the ignition that make no transition place their report and set or clear ignition pending alone; one
not due changes nothing (the model's choice, log 5); IGN_CHANGE restarts the steadiness timer. OPERATING_SECOND in RUN, with
1000 ms of remainder, counts one second, saturating, and at 3,600 of the interval a CYCLE record is queued; that what the
remainder holds over 1000 ms is carried on is the model's choice (log 7) (R16, R21, R29). -/
def Obligations.IgnitionAndOperatingSecondsCount : Prop :=
  (∀ s : State,
    (s.sc.ignRaw = true → s.sc.ignOn = false → 50 ≤ s.sc.steadyMs →
      s.sc.opState ≠ .parked ∨ s.sc.watch = .waking → exec .ignitionOnConfirmed s = .next
        { s with
          li := s.li.place .ignition 0 (some 1)
          sc := { s.sc with
            ignOn := true
            ignPending := s.sc.ignPending || decide (s.sc.opState = .shutdown ∨ s.sc.opState = .parked) } }) ∧
    (s.sc.ignRaw = false → s.sc.ignOn = true → 500 ≤ s.sc.steadyMs → s.sc.opState ≠ .run →
      exec .ignitionOffConfirmed s = .next
        { s with
          li := s.li.place .ignition 0 (some 0)
          sc := { s.sc with
            ignOn := false
            ignPending := s.sc.ignPending && !decide (s.sc.opState = .shutdown ∨ s.sc.opState = .parked) } }) ∧
    (s.sc.ignRaw = false ∨ s.sc.ignOn = true ∨ s.sc.steadyMs < 50 → exec .ignitionOnConfirmed s = .next s) ∧
    (s.sc.ignRaw = true ∨ s.sc.ignOn = false ∨ s.sc.steadyMs < 500 → exec .ignitionOffConfirmed s = .next s) ∧
    ∀ high : Bool,
      (s.sc.ignRaw ≠ high → exec (.ignChange high) s =
        .next { s with sc := { s.sc with ignRaw := high, steadyMs := 0 } }) ∧
      (s.sc.ignRaw = high → exec (.ignChange high) s = .next s)) ∧
  (∀ s : State,
    (s.sc.opState = .run → 1000 ≤ s.sc.remainderMs →
      let counted (interval : Nat) : Controller :=
        { s.sc with remainderMs := s.sc.remainderMs - 1000, opSeconds := min 4294967295 (s.sc.opSeconds + 1),
                    cycleInterval := interval }
      (s.sc.cycleInterval < 3599 →
        exec .operatingSecond s = .next { s with sc := counted (s.sc.cycleInterval + 1) }) ∧
      (3599 ≤ s.sc.cycleInterval → ∃ t, exec .operatingSecond s = .next t ∧ t.sc = counted 0 ∧
        t.holdsRecord (.cycle s.sc.cycle (min 4294967295 (s.sc.opSeconds + 1))) ∧ t = { s with sc := t.sc, jc := t.jc })) ∧
    (s.sc.opState ≠ .run → exec .operatingSecond s = .next s))

/-- STOP in RUN at STANDSTILL enters CONFIG with the session over, conversion ended, gauges UNPOWERED where they stand,
warnings, lamps and DOORS_CLEAR off, the absence of each fault-linked warning handed over, the chime without claimant and
falling silent after its on-period, and nothing queued; moving or unknown it is refused NOT_STANDSTILL; STOP in PARKED enters
CONFIG and ends conversion alone (R24, R44, R87, R109, R111, R124, R140). -/
def Obligations.StopEntersConfig : Prop :=
  ∀ (s : State) (tag : Byte), s.taking → s.outputsSound →
    (s.sc.opState = .run → s.ci.motion ≠ .standstill → exec (.stop tag []) s = .next (s.refused tag [0x0A])) ∧
    (s.sc.opState = .run ∧ s.ci.motion = .standstill ∨ s.sc.opState = .parked →
      ∃ t, exec (.stop tag []) s = .next t ∧ t.sc.opState = .config ∧ t.sc.newCycle = s.sc.newCycle ∧
        t.sc.cycle = s.sc.cycle ∧ t.sc.opSeconds = s.sc.opSeconds ∧ t.sc.cycleInterval = s.sc.cycleInterval ∧
        t.sc.remainderMs = s.sc.remainderMs ∧ t.cu.inFlight = none ∧ t.cu.queue = [] ∧ t.cu.runCount = 0 ∧
        t.cu.pos = .reference ∧ t.cu.path = .unpowered ∧ t.cu.scan = s.cu.scan ∧ t.cu.lastResult = s.cu.lastResult ∧
        (∀ ch : Fin 24, t.cu.comparator[ch] = .unpowered ∧ t.cu.latch[ch] = .armed) ∧ t.jc = s.jc ∧
        t.dm.stats = s.dm.stats ∧ t.wm.defs = s.wm.defs ∧ t.ci.wired = s.ci.wired ∧ t.ci.net = s.ci.net ∧
        t.li.transmitter = .answering (syncByte :: frameChars (0x09 + 0x80) tag []) ∧
        (s.sc.opState = .run → t.outsideRun ∧ s.handsWarningAbsences t ∧
          (∀ l : Fin 8, t.dm.leaves[l].state = s.dm.leaves[l].state ∧ t.dm.leaves[l].travelT = none ∧
            t.dm.leaves[l].lockT = none ∧ t.dm.leaves[l].closingT = none) ∧
          ∀ g : Fin 8, t.ge[g].pointer = .unpowered ∧ t.ge[g].pos = s.ge[g].pos ∧ t.ge[g].acc = s.ge[g].acc ∧
            t.ge[g].display = s.ge[g].display) ∧
        (s.sc.opState = .parked → t.sc.watch = .quiet ∧ t.ge = s.ge ∧ t.wm = s.wm ∧ t.ao = s.ao ∧ t.dm = s.dm ∧
          t.fm = s.fm ∧ t.ci = s.ci))

/-- The state right after a reset holds in every block what its chapter lists. HARD_RESET takes every block there from any
state, with any level of LRATE; SOFT_RESTART does once a RESTART has been answered and its reply sent, and else changes
nothing (log 8); RESTART outside STARTING is answered first and changes nothing else. ATTN, the lamps and CHIME are off and
TXD rests high. Pins and waiting commands stay (log 2, log 4), and so do the factory row, at a soft restart the sectors, and
the identity row where none is being programmed (R1, R14, R25, R175, R178, R179). The fields of a cleared configuration stand
at 0 by the model's choice (log 40). -/
def Obligations.ResetsTakeEveryBlockToItsValues : Prop :=
  (State.reset.atReset ∧ State.reset.pending = []) ∧
  (∀ (s t : State) (c : Instr),
    (∃ lrateHigh : Bool, c = .hardReset lrateHigh ∨
      (c = .softRestart lrateHigh ∧ s.li.restartPending = true ∧ s.li.transmitter = .idle)) →
    exec c s = .next t → s.jc.row ≠ .programming →
    (∀ (n : Nat) (chars : List Byte), s.jc.inFlight ≠ some (.row n chars) ∧ s.jc.finishing ≠ some (.row n chars)) →
    t.jc.row = s.jc.row) ∧
  (∀ (s : State) (lrateHigh : Bool), ∃ t, exec (.hardReset lrateHigh) s = .next t ∧ t.atReset ∧
    t.li.lineRate = (if lrateHigh then .baud460800 else .baud115200) ∧ t.li.restartPending = false ∧
    t.sc.ignRaw = s.sc.ignRaw ∧ t.cu.loopOhms = s.cu.loopOhms ∧ t.pending = s.pending ∧ t.jc.factory = s.jc.factory ∧
    t.attn = false ∧ (∀ n, t.txd n = true) ∧ (∀ l : Fin 24, t.lampLit l = false) ∧ t.chimeTone = none) ∧
  ((∀ (s : State) (lrateHigh : Bool), s.li.restartPending = true → s.li.transmitter = .idle →
    ∃ t, exec (.softRestart lrateHigh) s = .next t ∧ t.atReset ∧
      t.li.lineRate = (if lrateHigh then .baud460800 else .baud115200) ∧ t.li.restartPending = false ∧
      t.sc.ignRaw = s.sc.ignRaw ∧ t.cu.loopOhms = s.cu.loopOhms ∧ t.pending = s.pending ∧
      t.jc.factory = s.jc.factory ∧ t.jc.sectors = s.jc.sectors ∧ t.attn = false ∧ (∀ n, t.txd n = true) ∧
      (∀ l : Fin 24, t.lampLit l = false) ∧ t.chimeTone = none) ∧
  ∀ (s : State) (lrateHigh : Bool), s.li.restartPending = false ∨ s.li.transmitter ≠ .idle →
    exec (.softRestart lrateHigh) s = .next s) ∧
  (∀ (s : State) (tag : Byte), s.taking → s.sc.opState ≠ .starting →
    exec (.restart tag []) s =
      .next (({ s with li := { s.li with restartPending := true } } : State).replied 0x04 tag []))

/-! ## The service session -/

namespace Sys2Proof.Machine

/-- What the end of tests does to a gauge (R89; that the filtered position follows the accumulator is DEDUCED, log 34). -/
def Gauge.testEnded (x : Gauge) : Gauge :=
  let y := { x with acc := 256 * x.pos, filtered := (256 * x.pos + 128) / 256, testPos := none, testDue := false }
  if x.pointer = .test then { y with pointer := .tracking }
  else if x.pointer = .hold ∧ x.resume = some .test then { y with resume := some .tracking }
  else x

/-- Tests have ended between two states, and nothing but gauges in test, lamps and chime has changed (R89, R122, R123). -/
def State.endsTests (s t : State) : Prop :=
  (∀ g : Fin 8, t.ge[g] = s.ge[g].testEnded) ∧
    (∀ l : Fin 24, t.ao.overrides[l] = none ∧ t.ao.drive[l] = if t.ao.bulb.isSome then .lit else t.lampClaim l) ∧
    t.ao.chimeTest = none ∧ t.ao.bulb = s.ao.bulb ∧ t.ao.listCopy = s.ao.listCopy ∧ t.testsInForce = false ∧
    t.pending = s.pending ∧ t.cu = s.cu ∧ t.ci = s.ci ∧ t.wm = s.wm ∧ t.dm = s.dm ∧ t.fm = s.fm ∧ t.jc = s.jc

end Sys2Proof.Machine

/-- ENTER_SERVICE opens the session at STANDSTILL with its report, answers ALREADY_ON in one, and is refused while moving or
unknown; LEAVE_SERVICE ends it with its tests and its report; END_TESTS ends the tests and leaves it open; where there is
nothing to end nothing changes (R180, R182, R184). -/
def Obligations.TheSessionOpensAndEnds : Prop :=
  ∀ (s : State) (tag : Byte), s.taking → s.sc.opState = .run →
    (s.ci.motion ≠ .standstill → exec (.enterService tag []) s = .next (s.refused tag [0x0A])) ∧
    (s.ci.motion = .standstill → s.sc.service = false → exec (.enterService tag []) s =
      .next (({ s with li := s.li.place .serviceEntered 0 none, sc := { s.sc with service := true } } : State).replied
        0x30 tag (b1 6))) ∧
    (s.ci.motion = .standstill → s.sc.service = true →
      exec (.enterService tag []) s = .next (s.replied 0x30 tag (b1 7))) ∧
    (s.sc.service = false → exec (.leaveService tag []) s = .next (s.replied 0x31 tag (b1 9))) ∧
    (s.sc.service = true → s.outputsSound → ∃ t, exec (.leaveService tag []) s = .next t ∧
      t.sc = { s.sc with service := false } ∧ s.endsTests t ∧ t.hasReport .serviceEnded 0 (some 1) ∧
      (s.testsInForce = true → t.hasReport .testEnded 0 (some 1)) ∧
      t.li.transmitter = .answering (syncByte :: frameChars (0x31 + 0x80) tag (b1 8))) ∧
    (s.sc.service = true → s.testsInForce = false →
      exec (.endTests tag []) s = .next (s.replied 0x35 tag (b1 11))) ∧
    (s.sc.service = true → s.testsInForce = true → ∃ t, exec (.endTests tag []) s = .next t ∧ t.sc = s.sc ∧
      s.endsTests t ∧ t.hasReport .testEnded 0 (some 5) ∧
      t.li.transmitter = .answering (syncByte :: frameChars (0x35 + 0x80) tag (b1 10)))

/-- Inside a session GAUGE_TEST takes a gauge from TRACKING to TEST or gives one in TEST its new position, a homing, sweeping
or held gauge being BUSY; LAMP_TEST forces every lamp of its set alone; CHIME_TEST makes its pattern the claimant, taking a
silent chime at once and leaving a sounding tone to its on-period; what is out of range is BAD_VALUE (R88, R118, R122, R123).
That each CHIME_TEST raises a number which tells it from the one before is DEDUCED (log 16). -/
def Obligations.ActuatorTestsForceTheirOutputs : Prop :=
  (∀ (s : State) (tag : Byte) (g : Fin 8) (n : Nat), s.taking → s.sc.opState = .run → s.sc.service = true →
    n < 65536 →
    let tested (st : PointerState) : Vector Gauge 8 :=
      s.ge.set g { s.ge[g] with pointer := st, testPos := some n, testDue := true }
    (∀ r, s.ge[g].record = some r →
      (n ≤ r.span → s.ge[g].pointer = .tracking → exec (.gaugeTest tag (b1 g.val ++ b2 n)) s =
        .next (({ s with ge := tested .test, li := s.li.place .pointerState g.val (some 5) } : State).replied
          0x32 tag [])) ∧
      (n ≤ r.span → s.ge[g].pointer = .test → exec (.gaugeTest tag (b1 g.val ++ b2 n)) s =
        .next (({ s with ge := tested .test } : State).replied 0x32 tag [])) ∧
      (n ≤ r.span → s.ge[g].pointer = .homing ∨ s.ge[g].pointer = .sweep ∨ s.ge[g].pointer = .hold →
        exec (.gaugeTest tag (b1 g.val ++ b2 n)) s = .next (s.refused tag [0x07])) ∧
      (r.span < n → exec (.gaugeTest tag (b1 g.val ++ b2 n)) s = .next (s.refused tag [0x04]))) ∧
    (s.ge[g].record = none → exec (.gaugeTest tag (b1 g.val ++ b2 n)) s = .next (s.refused tag [0x04])) ∧
    ∀ b : Byte, 8 ≤ b.toNat → exec (.gaugeTest tag (b :: b2 n)) s = .next (s.refused tag [0x04])) ∧
  (∀ (s : State) (tag : Byte), s.taking → s.sc.opState = .run → s.sc.service = true →
    (∀ (lamps : Nat) (on : Bool), 0 < lamps → lamps < 2 ^ 24 → (∀ l : Fin 24, s.ao.drive[l] = s.lampDrive l) →
      ∃ t : State, exec (.lampTest tag (b2 lamps ++ b1 (lamps / 65536) ++ b1 (if on then 1 else 0))) s =
          .next (t.replied 0x33 tag []) ∧
        (∀ l : Fin 24, lamps.testBit l.val = true → t.ao.overrides[l] = some on ∧ t.lampLit l = on) ∧
        (∀ l : Fin 24, lamps.testBit l.val = false →
          t.ao.overrides[l] = s.ao.overrides[l] ∧ t.ao.drive[l] = s.ao.drive[l]) ∧
        t = { s with ao := { s.ao with overrides := t.ao.overrides, drive := t.ao.drive } }) ∧
    (∀ a b c d : Byte, (a = 0 ∧ b = 0 ∧ c = 0) ∨ 2 ≤ d.toNat →
      exec (.lampTest tag [a, b, c, d]) s = .next (s.refused tag [0x04])) ∧
    (∀ p : Fin 8, s.ao.patterns[p].isSome → ∃ t : State, exec (.chimeTest tag (b1 p.val)) s =
        .next (t.replied 0x34 tag []) ∧
      t.ao.chimeTest = some p ∧ t.ao.claimant = .test p (s.ao.testGen + 1) ∧
      (s.chimeTone ≠ none → t = { s with ao := { s.ao with
        chimeTest := some p, testGen := s.ao.testGen + 1, claimant := t.ao.claimant } }) ∧
      (s.chimeTone = none → s.ao.source ≠ t.ao.claimant → t = { s with ao := { s.ao with
        chimeTest := some p, testGen := s.ao.testGen + 1, claimant := t.ao.claimant, source := t.ao.claimant, burst := 0,
        phase := 0, genQ := 0 } })) ∧
    ∀ b : Byte, (∀ p : Fin 8, p.val = b.toNat → s.ao.patterns[p] = none) →
      exec (.chimeTest tag [b]) s = .next (s.refused tag [0x04]))

/-- CLEAR_FAULTS inside a session sweeps index and queued fault records, queues the CLEAR_MARK and starts the tracker of
every present source anew; with a clear pending it is BUSY and changes nothing (R160). The order of the sources is DEDUCED
(log 11). -/
def Obligations.ClearFaultsSweepsTheIndex : Prop :=
  ∀ (s : State) (tag : Byte), s.taking → s.sc.opState = .run → s.sc.service = true →
    (s.fm.clearPending = true → exec (.clearFaults tag []) s = .next (s.refused tag [0x07])) ∧
    (s.fm.clearPending = false → ∃ t, exec (.clearFaults tag []) s = .next t ∧ t.fm.clearPending = true ∧
      (Content.clearMark ∈ t.jc.queue ∨ t.jc.programsMark = true) ∧
      (∀ src : FaultSource, t.fm.tracker src =
        match s.fm.present src, confirmTime src with
        | true, some ms => { state := .pending, timer := some ms }
        | true, none => { state := .confirmed, timer := none }
        | false, _ => { state := .absent, timer := none }) ∧
      (∀ e ∈ t.fm.index, s.fm.present e.src = true ∧ confirmTime e.src = none ∧ e.occurrence = 1) ∧
      ((∀ src : FaultSource, s.fm.present src = true → (confirmTime src).isSome) →
        t.fm.index = [] ∧ t.fm.full = false ∧ ∀ c ∈ t.jc.queue, ∀ src, c.key ≠ .fault src) ∧
      t.fm.presence = s.fm.presence ∧ t.fm.freeze = s.fm.freeze ∧
      t.li.transmitter = .answering (syncByte :: frameChars (0x37 + 0x80) tag (b1 1)) ∧
      t = { s with li := t.li, fm := t.fm, jc := t.jc })

/-- RESET_DOOR_STATS, whole: outside a session refused NOT_IN_SERVICE, above leaf 7 BAD_VALUE; any leaf 0 to 7, configured or
not, has its counts zeroed and its mean made absent, a DOOR_STATS record queued, and its state, flags and cycle mark kept, so
that a cycle begun still counts; the next measured closing sets the mean directly (R143). -/
def Obligations.ResetDoorStatsZeroesOneLeaf : Prop :=
  ∀ (s : State) (tag : Byte), s.taking → s.sc.opState = .run ∨ s.sc.opState = .config →
    (s.sc.service = false → ∀ b : Byte, exec (.resetDoorStats tag [b]) s = .next (s.refused tag [0x06])) ∧
    (s.sc.service = true → ∀ b : Byte, 8 ≤ b.toNat →
      exec (.resetDoorStats tag [b]) s = .next (s.refused tag [0x04])) ∧
    (s.sc.service = true → ∀ i : Fin 8, ∃ t : State,
      exec (.resetDoorStats tag (b1 i.val)) s = .next (t.replied 0x38 tag []) ∧
        t.dm = { s.dm with stats := s.dm.stats.set i { cycles := 0, obstructions := 0, slow := 0, mean := none } } ∧
        t.holdsRecord (.doorStats t.dm.stats) ∧ t = { s with dm := t.dm, jc := t.jc }) ∧
    (∀ (l : Leaf) (d : DoorStats) (st : LeafState), l.cycleMark = true → secureState l.hasLock st = true →
      (d.count l st).cycles = min 4294967295 (d.cycles + 1)) ∧
    ∀ (r : LeafRun) (m : Nat), r.stats.mean = none → (r.measure m).stats.mean = some m

/-- WRITE_VEHICLE_ID inside a session: a length other than 17, then a character outside 0x20 to 0x7E, then a row that is not
BLANK is refused; else the row is PROGRAMMING and the VID record queued or started. ROW_PROGRAM_COMPLETE, when due, leaves it
WRITTEN, hands the identity over and reports it; one not due changes nothing (the model's choice, log 5) (R175, R188). -/
def Obligations.TheVehicleIdentityIsWrittenOnce : Prop :=
  ∀ s : State,
    (∀ (tag : Byte) (p : List Byte), s.taking → s.sc.opState = .run → s.sc.service = true → p.length ≤ 248 →
      (p.length ≠ 17 → exec (.writeVehicleId tag p) s = .next (s.refused tag [0x03])) ∧
      (p.length = 17 → (∃ b ∈ p, b.toNat < 0x20 ∨ 0x7E < b.toNat) →
        exec (.writeVehicleId tag p) s = .next (s.refused tag [0x04])) ∧
      (p.length = 17 → (∀ b ∈ p, 0x20 ≤ b.toNat ∧ b.toNat ≤ 0x7E) → s.jc.row ≠ .blank →
        exec (.writeVehicleId tag p) s = .next (s.refused tag [0x08])) ∧
      (p.length = 17 → (∀ b ∈ p, 0x20 ≤ b.toNat ∧ b.toNat ≤ 0x7E) → s.jc.row = .blank →
        ∃ t : State, exec (.writeVehicleId tag p) s = .next (t.replied 0x39 tag (b1 1)) ∧
          t.jc.row = .programming ∧ (.vid p ∈ t.jc.queue ∨ ∃ n, t.jc.inFlight = some (.row n p)) ∧
          t = { s with jc := t.jc })) ∧
    (∀ (n : Nat) (chars : List Byte), s.jc.finishing = none → s.jc.inFlight = some (.row n chars) →
      (5 ≤ s.jc.opMs → ∃ t, exec .rowProgramComplete s = .next t ∧ t.jc.row = .written n chars ∧
        t.li = ({ s.li with vehicleId := some chars } : Link).place .vehicleIdWritten 0 none ∧
        t = { s with li := t.li, jc := t.jc }) ∧
      (s.jc.opMs < 5 → exec .rowProgramComplete s = .next s))

/-! ## The array -/

/-- RECORD_PROGRAM_COMPLETE writes the record or copy into the head's next slot and tells the FM of a CLEAR_MARK or a
displacing entry; in a soft restart nothing is handed over and the rebuild begins. HEADER_PROGRAM_COMPLETE makes the next
sector the head and starts the reclaim where no other sector is ERASED; ERASE_COMPLETE leaves the tail ERASED. A completion
not due changes nothing (the model's choice, log 5) (R156, R161, R168 to R171, R179). -/
def Obligations.ArrayOperationsMoveTheJournal : Prop :=
  (∀ (s : State) (r : Record),
    let written (t : State) : Prop := t.jc.head = s.jc.head ∧ ∀ i : Fin 4, t.jc.sectors[i].slots =
      s.jc.sectors[i].slots ++ (if i = s.jc.head then [.record r] else [])
    (s.jc.finishing = none → s.jc.inFlight = some (.program r) → 3 ≤ s.jc.opMs →
      ∃ t, exec .recordProgramComplete s = .next t ∧ written t ∧ t = { s with li := t.li, fm := t.fm, jc := t.jc } ∧
        match r.content with
        | .clearMark => t.fm = { s.fm with clearPending := false } ∧ t.li = s.li.place .clearDone 0 none
        | .faultEntry e => t.li = s.li ∧ (e.displaces = none → t.fm = s.fm) ∧
            (e.displaces ≠ none → t.fm = { s.fm with index := s.fm.index.map fun x =>
              if x.src = e.src then { x with dispPending := false } else x })
        | _ => t.fm = s.fm ∧ t.li = s.li) ∧
    (s.jc.finishing = none → s.jc.inFlight = some (.copy r) → 3 ≤ s.jc.opMs →
      ∃ t, exec .recordProgramComplete s = .next t ∧ written t ∧ t = { s with jc := t.jc }) ∧
    (s.jc.finishing = some (.program r) ∨ s.jc.finishing = some (.copy r) → 3 ≤ s.jc.opMs →
      ∃ t, exec .recordProgramComplete s = .next t ∧ written t ∧ t = { s with jc := t.jc } ∧
        t.jc.finishing = none ∧ t.jc.rebuildMs = t.jc.rebuildTime) ∧
    (s.jc.opMs < 3 → exec .recordProgramComplete s = .next s)) ∧
  (∀ s : State,
    (∀ x : Fin 4, s.jc.finishing = none → s.jc.inFlight = some (.header x) → 3 ≤ s.jc.opMs → s.jc.reclaim = .idle →
      ∃ t, exec .headerProgramComplete s = .next t ∧ t = { s with jc := t.jc } ∧ t.jc.head = x ∧
        t.jc.sectors[x] = { header := .sequence s.jc.nextSector, slots := [] } ∧
        t.jc.nextSector = s.jc.nextSector + 1 ∧
        ((∃ i : Fin 4, i ≠ x ∧ s.jc.sectors[i] = { header := .blank, slots := [] }) →
          t.jc.reclaim = .idle ∧ ∀ i : Fin 4, i ≠ x → t.jc.sectors[i] = s.jc.sectors[i]) ∧
        ((∀ i : Fin 4, i ≠ x → ∃ n, s.jc.sectors[i].header = .sequence n) → t.jc.reclaim ≠ .idle)) ∧
    (∀ (tail : Fin 4) (ms : Nat), s.jc.inFlight = some .erase → s.jc.reclaim = .erasing tail ms → 120 ≤ ms →
      ∃ t, exec .eraseComplete s = .next t ∧ t = { s with li := t.li, jc := t.jc } ∧
        t.li = s.li.place .reclaimDone 0 (some (BitVec.ofNat 16 tail.val)) ∧ t.jc.reclaim = .idle ∧
        t.jc.head = s.jc.head ∧ t.jc.sectors = s.jc.sectors.set tail { header := .blank, slots := [] }) ∧
    (s.jc.finishing = none → s.jc.opMs < 3 → exec .headerProgramComplete s = .next s) ∧
    ∀ (tail : Fin 4) (ms : Nat), s.jc.reclaim = .erasing tail ms → ms < 120 → exec .eraseComplete s = .next s)

/-- What a hard reset cuts off in the array: a record program or copy leaves a void slot at the head, a row program a SPOILED
row, a header program an unreadable header; without a program in flight the sectors stay, and a VID record only queued leaves
the row BLANK (R175, R178). -/
def Obligations.HardResetCutsOffTheOperation : Prop :=
  ∀ (s : State) (lrateHigh : Bool), s.sc.opState ≠ .starting → s.jc.finishing = none →
    ∃ t, exec (.hardReset lrateHigh) s = .next t ∧ t.jc.queue = [] ∧ t.jc.inFlight = none ∧
      t.jc.reclaim = .idle ∧
      match s.jc.inFlight with
      | some (.program _) | some (.copy _) =>
        (∀ i : Fin 4, t.jc.sectors[i].header = s.jc.sectors[i].header ∧ t.jc.sectors[i].slots =
          s.jc.sectors[i].slots ++ (if i = s.jc.head then [.void] else [])) ∧
          t.jc.row = (if s.jc.row = .programming then .blank else s.jc.row)
      | some (.header x) =>
        (∀ i : Fin 4, t.jc.sectors[i].slots = s.jc.sectors[i].slots ∧ t.jc.sectors[i].header =
          if i = x then .unreadable else s.jc.sectors[i].header) ∧
          t.jc.row = (if s.jc.row = .programming then .blank else s.jc.row)
      | some (.row _ _) => t.jc.sectors = s.jc.sectors ∧ t.jc.row = .spoiled
      | some .erase | none => t.jc.sectors = s.jc.sectors ∧
          t.jc.row = (if s.jc.row = .programming then .blank else s.jc.row)

namespace Sys2Proof.Machine

/-- A complete record that the rebuild reads: one in a sector whose header is not unreadable (R173). -/
def Journal.reads (j : Journal) (r : Record) : Prop :=
  ∃ i : Fin 4, j.sectors[i].header ≠ .unreadable ∧ (j.sectors[i].header ≠ .blank ∨ j.sectors[i].slots = []) ∧
    Slot.record r ∈ j.sectors[i].slots

/-- An entry is chosen as victim before another (R157). -/
def FaultEntry.goesBefore (a b : FaultEntry) : Prop :=
  a.severity.code < b.severity.code ∨ (a.severity.code = b.severity.code ∧
    (a.occurrence < b.occurrence ∨ (a.occurrence = b.occurrence ∧
      (a.lastSeen < b.lastSeen ∨ (a.lastSeen = b.lastSeen ∧ faultCode a.src < faultCode b.src)))))

/-- The rebuild at a cycle number hands the FM an entry from a record (R172, R174): the record is the newest of the entry's
code, above every CLEAR_MARK, not displaced by a later record, and within 40 cycles. -/
structure Journal.handsOver (j : Journal) (cycle : Nat) (r : Record) (e : FaultEntry) : Prop where
  holds       : j.reads r ∧ r.content = .faultEntry e
  newest      : ∀ (x : Record) (f : FaultEntry), j.reads x → x.content = .faultEntry f → f.src = e.src → x.seq ≤ r.seq
  aboveMarks  : ∀ x : Record, j.reads x → x.content = .clearMark → x.seq < r.seq
  undisplaced : ∀ (x : Record) (f : FaultEntry), j.reads x → x.content = .faultEntry f → f.displaces = some e.src →
    x.seq ≤ r.seq
  young       : cycle - e.lastCycle < 40

/-- A record is the newest of those the rebuild reads that `p` accepts. -/
def Journal.newest (j : Journal) (p : Content → Prop) (r : Record) : Prop :=
  j.reads r ∧ p r.content ∧ ∀ x, j.reads x → p x.content → x = r ∨ x.seq < r.seq

end Sys2Proof.Machine

/-- REBUILD_COMPLETE, when the rebuild has run its time, enters CONFIG with the cycle number and seconds of the newest CYCLE
record, the statistics of the newest DOOR_STATS record, each zero and absent without one, and the vehicle identity of a
WRITTEN row. The fault index, in its order, holds the entries of live FAULT_ENTRY records that are the newest of their code:
above the newest CLEAR_MARK, not displaced later, within 40 cycles; and of these every one, but that of more than 32 those
are left out that the victim order names first. The other blocks stay. That the rebuild acts as one step after its time is
the model's choice (log 23), and so is that a REBUILD_COMPLETE not due changes nothing (log 5) (R26, R141, R164, R172 to
R174). -/
def Obligations.RebuildCompleteHandsTheValuesOver : Prop :=
  ∀ s : State, s.sc.opState = .starting → s.jc.finishing = none →
    (s.jc.rebuildMs = 0 → (∀ i : Fin 4, s.jc.sectors[i].header = .blank → s.jc.sectors[i].slots = []) →
      ∃ t, exec .rebuildComplete s = .next t ∧ t.sc.opState = .config ∧
        (∀ (r : Record) (n sec : Nat), s.jc.newest (fun c => ∃ a b, c = .cycle a b) r → r.content = .cycle n sec →
          t.sc.cycle = n ∧ t.sc.opSeconds = sec) ∧
        ((∀ r n sec, s.jc.reads r → r.content ≠ .cycle n sec) → t.sc.cycle = 0 ∧ t.sc.opSeconds = 0) ∧
        (∀ (r : Record) (v : Vector DoorStats 8), s.jc.newest (fun c => ∃ a, c = .doorStats a) r →
          r.content = .doorStats v → t.dm.stats = v) ∧
        ((∀ r v, s.jc.reads r → r.content ≠ .doorStats v) →
          t.dm.stats = Vector.replicate 8 { cycles := 0, obstructions := 0, slow := 0, mean := none }) ∧
        t.li.vehicleId = (match s.jc.row with
          | .written _ chars => some chars
          | .blank | .programming | .spoiled => none) ∧
        t.fm.index.length ≤ 32 ∧ (t.fm.index.map (·.src)).Nodup ∧
        t.fm.index.Pairwise (fun a b => a.firstSeen < b.firstSeen ∨
          (a.firstSeen = b.firstSeen ∧ faultCode a.src < faultCode b.src)) ∧
        (∀ e ∈ t.fm.index, ∃ (r : Record) (f : FaultEntry), s.jc.handsOver t.sc.cycle r f ∧
          e = { f with dispPending := false }) ∧
        (∀ (r : Record) (f : FaultEntry), s.jc.handsOver t.sc.cycle r f →
          (∀ (x : Record) (k : FaultEntry), s.jc.reads x → x.content = .faultEntry k → k.src = f.src → x.seq = r.seq →
            x = r) →
          let e : FaultEntry := { f with dispPending := false }
          e ∈ t.fm.index ∨ (t.fm.index.length = 32 ∧ ∀ u ∈ t.fm.index, e.goesBefore u)) ∧
        t = { s with li := t.li, sc := t.sc, dm := t.dm, fm := t.fm, jc := t.jc } ∧ t.jc.queue = [] ∧
        t.sc = { s.sc with opState := .config, cycle := t.sc.cycle, opSeconds := t.sc.opSeconds } ∧
        t.dm = { s.dm with stats := t.dm.stats } ∧ t.fm = { s.fm with index := t.fm.index } ∧
        t.hasReport .stateChanged 0 (some 1)) ∧
    (0 < s.jc.rebuildMs → exec .rebuildComplete s = .next s)

/-! ## Conversion and interpretation -/

namespace Sys2Proof.Machine

/-- What a pass position names, in the scan list or, in PARKED, the watch set (R35, R43). -/
def State.passTarget (s : State) : PassElement → Target
  | .reference => .reference
  | .supply => .supply
  | .entry i =>
    match (if s.sc.opState = .parked then s.sc.watchSet else s.cu.scan)[i]? with
    | some ch => .wired ch
    | none => .reference

/-- A conversion that has just been started, with the gate code of its target (R33, R34). -/
def State.begun (s : State) (target : Target) (origin : Origin) (hostMark : Bool) : Conversion :=
  { target, origin, phase := .settle, hostMark
    gate := match target with
      | .reference => 2
      | .supply => 0
      | .wired ch => s.ci.wired[ch].cfg.gate }

/-- The result record of a conversion (R30 to R32). -/
def Conversion.record (c : Conversion) (periods pin bias : Nat) : ResultRecord :=
  { target := c.target, gate := c.gate, origin := c.origin, count := min periods 65535
    saturated := decide (65535 ≤ periods)
    level := if 5 * pin < bias then .low else if 4 * bias < 5 * pin then .high else .mid }

/-- The record is stored as the last result of its target (R32). -/
def ConvUnit.stores (u v : ConvUnit) (r : ResultRecord) : Prop :=
  match r.target with
  | .wired ch => v.lastResult = u.lastResult.set ch (some r) ∧ v.lastRef = u.lastRef
  | .reference => v.lastResult = u.lastResult ∧ v.lastRef = some r.count
  | .supply => v.lastResult = u.lastResult ∧ v.lastRef = u.lastRef

/-- A hand-over of a watch pass at leaf `i`: a parked-watch leaf takes its readings and remembers a RELEASE that became
ACTIVE, and nothing else of it changes (R139, log 30). -/
def State.leafRecords (s t : State) (i : Fin 8) : Prop :=
  let a := s.dm.leaves[i]
  let b := t.dm.leaves[i]
  let rises := decide (b.readings[slotRelease] = .active ∧ a.readings[slotRelease] ≠ .active)
  ((∃ c, a.cfg = some c ∧ c.watched = true) → s.takesReadings t i ∧
    b = { a with readings := b.readings, releaseRose := a.releaseRose || rises }) ∧
  ((∀ c, a.cfg = some c → c.watched = false) → b = a)

/-- The end of a watch pass at leaf `i` (R139): a parked-watch leaf takes its last readings and is evaluated by UNKNOWN,
RELEASED or re-derivation; DOOR/PARKED fires where the state has passed out of LOCKED and CLOSED (log 20) or RELEASE has
become ACTIVE during the pass; the index holds its entry, unless it is full (R157). -/
def State.leafParks (s t : State) (i : Fin 8) : Prop :=
  let a := s.dm.leaves[i]
  let b := t.dm.leaves[i]
  let fired := ((a.state = .locked ∨ a.state = .closed) ∧ b.state ≠ .locked ∧ b.state ≠ .closed) ∨
    a.releaseRose = true ∨ (b.readings[slotRelease] = .active ∧ a.readings[slotRelease] ≠ .active)
  ((∀ c, a.cfg = some c → c.watched = false) → b = a) ∧
  ∀ c : LeafCfg, a.cfg = some c → c.watched = true →
    s.takesReadings t i ∧ (b.unseen → b.state = .unknown) ∧ (¬ b.unseen → b.onRelease → b.state = .released) ∧
    (¬ b.unseen → ¬ b.onRelease → b.state = b.standing) ∧ b.releaseRose = false ∧ b.slow = a.slow ∧
    (b.state ≠ a.state → t.dm.doorway[c.doorway] = t.dm.worst c.doorway) ∧
    (b.inputFault = true ↔ b.state = .unknown ∧ ∃ (slot : Fin 5) (x : LeafInput),
      (slot = slotClosed ∨ slot = slotLocked ∨ slot = slotRelease) ∧ b.input slot = some x ∧
        b.readings[slot] = .unknown ∧ ((t.ci.eff x.ch).status = .fault ∨ (t.ci.eff x.ch).status = .lost)) ∧
    (b.inputFault ≠ a.inputFault → t.fm.present (.doorInput i) = b.inputFault) ∧
    (fired → s.fm.sound → t.fm.index.length < 32 →
      ∃ e ∈ t.fm.index, e.src = .doorParked i ∧ s.sc.opSeconds ≤ e.lastSeen) ∧
    (¬ fired → ∀ e ∈ t.fm.index, e.src = .doorParked i → e ∈ s.fm.index)

/-- A class lies on a side of the watch threshold (R40). -/
def WiredCfg.liesOn (c : WiredCfg) (k : ReadingClass) (side : Comparator) : Prop :=
  match k with
  | .band i => (side = .below ∧ ∃ upper, c.thresholds[i]? = some upper ∧ upper ≤ c.watchThr) ∨
      (side = .above ∧ ∃ j lower, i = j + 1 ∧ c.thresholds[j]? = some lower ∧ c.watchThr ≤ lower)
  | .saturated | .stallLow => side = .below
  | .stallMid | .stallHigh => side = .above

end Sys2Proof.Machine

/-- PATH_READY starts the pass element at the pass position, GATE_OPEN opens the gate after 0.25 ms of settle, and
CONVERSION_COMPLETE at the end of the window stores the record, moves pass position and run count and starts what R35
chooses, at once; a command that is not due changes nothing (the model's choice, log 5), and the time over a settle or window
is carried on (the model's choice, log 7) (R30, R32, R35, R42). In PARKED it runs the watch pass of R28 and R43: the latch
work of R40 without queueing, the parked-watch leaves taking their readings (log 30), and at the end of a pass without
ignition pending their evaluation (R139, log 20), then DRAINING where every latch of the watch set is ARMED, else another
pass. -/
def Obligations.ConversionsSettleGateAndFollow : Prop :=
  (∀ s : State,
    (s.sc.opState = .run ∨ s.sc.opState = .shutdown → s.cu.path = .settling → 20 ≤ s.cu.settleMs →
      exec .pathReady s = .next { s with cu := { s.cu with
        path := .ready, inFlight := some (s.begun (s.passTarget s.cu.pos) .pass false), elapsedQ := 0 } }) ∧
    (¬ s.live ∨ s.cu.path ≠ .settling ∨ s.cu.settleMs < 20 → exec .pathReady s = .next s) ∧
    (∀ c : Conversion, s.cu.inFlight = some c → c.phase = .settle →
      (1 ≤ s.cu.elapsedQ → exec .gateOpen s = .next { s with cu := { s.cu with
        inFlight := some { c with phase := .gate }, elapsedQ := s.cu.elapsedQ - 1 } }) ∧
      (s.cu.elapsedQ = 0 → exec .gateOpen s = .next s)) ∧
    (∀ (c : Conversion) (periods pin bias : Nat), s.cu.inFlight = some c →
      c.phase = .settle ∨ s.cu.elapsedQ < 8 * 2 ^ c.gate.val →
      exec (.conversionComplete periods pin bias) s = .next s) ∧
    ∀ (c : Conversion) (periods pin bias spent : Nat), s.gateEnds c spent →
      let r := c.record periods pin bias
      let pos := if c.origin = .pass then s.cu.pos.following s.cu.scan.length else s.cu.pos
      let run := if c.origin = .pass then 0 else s.cu.runCount + 1
      s.sc.opState = .run ∨ s.sc.opState = .shutdown → (∀ ch, c.target = .wired ch → s.cu.latch[ch] = .armed) →
      ∃ t, exec (.conversionComplete periods pin bias) s = .next t ∧
        s.cu.stores t.cu r ∧ t.cu.pos = pos ∧ t.cu.runCount = run ∧ t.cu.elapsedQ = spent ∧ t.cu.path = s.cu.path ∧
        t.cu.scan = s.cu.scan ∧ t.cu.latch = s.cu.latch ∧ t.cu.comparator = s.cu.comparator ∧
        t.pending = s.pending ∧ t.sc.opState = s.sc.opState ∧
        match s.cu.queue with
        | [] => t.cu.queue = [] ∧ t.cu.inFlight = some (s.begun (s.passTarget pos) .pass false)
        | e :: rest =>
          if (c.origin = .pass ∧ pos = .reference) ∨ 4 ≤ run then
            t.cu.queue = e :: rest ∧ t.cu.inFlight = some (s.begun (s.passTarget pos) .pass false)
          else t.cu.queue = rest ∧ t.cu.inFlight = some (s.begun (.wired e.ch) .priority e.hostMark)) ∧
  ∀ (s : State) (c : Conversion) (periods pin bias spent : Nat), s.gateEnds c spent → c.origin = .pass →
    s.sc.opState = .parked → (∀ g : Fin 8, s.ge[g].pointer = .unpowered) →
    let r := c.record periods pin bias
    let pos := s.cu.pos.following s.sc.watchSet.length
    let starts (t : State) : Prop :=
      t.cu.inFlight = some (s.begun (s.passTarget pos) .pass false) ∧ t.cu.elapsedQ = spent ∧ t.sc = s.sc
    pos ≠ .reference ∨ s.sc.ignPending = false →
    ∃ t, exec (.conversionComplete periods pin bias) s = .next t ∧ s.keepsWatch t ∧ s.cu.stores t.cu r ∧
      t.cu.pos = pos ∧ t.cu.runCount = 0 ∧
      (∀ ch : Fin 24, c.target ≠ .wired ch ∨ s.cu.latch[ch] = .armed → t.cu.latch[ch] = s.cu.latch[ch]) ∧
      (∀ ch : Fin 24, c.target = .wired ch → s.cu.latch[ch] = .set →
        s.ci.wired[ch].cfg.thresholds.Pairwise (· < ·) →
        (∀ i, s.ci.wired[ch].confirmed = some (.band i) → i ≤ s.ci.wired[ch].cfg.thresholds.length) →
        (t.cu.latch[ch] = .armed ↔
          ∃ k, t.ci.wired[ch].confirmed = some k ∧ s.ci.wired[ch].cfg.liesOn k s.cu.comparator[ch])) ∧
      (pos ≠ .reference → starts t ∧ ∀ i : Fin 8, s.leafRecords t i) ∧
      (pos = .reference → (∀ i : Fin 8, s.leafParks t i) ∧
        ((∀ ch ∈ s.sc.watchSet, t.cu.latch[ch] = .armed) →
          t.cu.inFlight = none ∧ t.sc = { s.sc with watch := .draining }) ∧
        ((∃ ch ∈ s.sc.watchSet, t.cu.latch[ch] = .set) → starts t))

/-- A wired result that is not interpreted changes nothing in the CI, but gives CONVERTED where its entry carried the host
mark and has its latch work. An interpreted one gives its channel reading class, candidate, confirmed class, wiring fault
class, status, value, reading and limited flag as R52 to R57 say; every other wired channel stays but for a switched flag:
that of a primary is set, with its report, where the channel is of its pair and now the primary is FAULT and the partner
VALID, and stays set (RUN entry, SET_CHANNEL and a reset clear it: EveryRunEntrySettlesTheBlocks,
SetChannelStoresAWiredConfiguration, ResetsTakeEveryBlockToItsValues); a primary with its flag set shows its partner's
status, value and reading, every other channel its own. It is handed over once: in RUN and SHUTDOWN each gauge of a changed
source derives (R74 to R76) and each leaf that names a changed channel is evaluated (R127 to R137), in RUN each warning that
reads what has changed is asked anew (R95 to R99, R109). In PARKED, but for a pass end that leads into RUN, the CI is moved
alike (R37, R40, R51 to R57, R62, R63, R68, R71). -/
def Obligations.WiredResultsMoveTheChannelAndItsLatch : Prop :=
  (∀ (s : State) (c : Conversion) (ch : Fin 24) (periods pin bias spent : Nat), s.gateEnds c spent → c.target = .wired ch →
    s.sc.opState = .run ∨ s.sc.opState = .shutdown →
    s.ci.judgement ≠ some .good ∨ s.ci.wired[ch].cfg.kind = .off ∨ s.ci.refFault = true →
    s.ci.wired[ch].cfg.thresholds.Pairwise (· < ·) →
    (∀ i, s.ci.wired[ch].confirmed = some (.band i) → i ≤ s.ci.wired[ch].cfg.thresholds.length) →
    let r := c.record periods pin bias
    let rearmed := ∃ k, s.ci.wired[ch].confirmed = some k ∧ s.ci.wired[ch].cfg.liesOn k s.cu.comparator[ch]
    ∃ t, exec (.conversionComplete periods pin bias) s = .next t ∧
      t = { s with li := t.li, cu := t.cu, freeCount := t.freeCount } ∧
      t.cu.lastResult = s.cu.lastResult.set ch (some r) ∧
      t.li = (if c.hostMark then s.li.place .converted ch.val (some (BitVec.ofNat 16 r.count)) else s.li) ∧
      (s.cu.latch[ch] = .armed → t.cu.latch = s.cu.latch) ∧
      (s.cu.latch[ch] = .set → rearmed → t.cu.latch = s.cu.latch.set ch .armed) ∧
      (s.cu.latch[ch] = .set → ¬ rearmed → t.cu.latch = s.cu.latch ∧
        ((∃ e ∈ t.cu.queue, e.ch = ch) ∨
          ∃ n : Conversion, t.cu.inFlight = some n ∧ n.target = .wired ch ∧ n.origin = .priority))) ∧
  (∀ (s : State) (c : Conversion) (ch : Fin 24) (periods pin bias spent : Nat), s.gateEnds c spent → c.target = .wired ch →
    s.sc.opState = .run ∨ s.sc.opState = .shutdown ∨ (s.sc.opState = .parked ∧ s.sc.ignPending = false) →
    s.ci.judgement = some .good → s.ci.refFault = false → s.ci.wired[ch].cfg.kind ≠ .off →
    ∀ nRef : Nat, s.ci.passCount = some nRef →
    let r := c.record periods pin bias
    let w := s.ci.wired[ch]
    let measured := r.saturated = false ∧ 4 ≤ r.count
    let ohms := (s.ci.rRef * nRef * 2 ^ r.gate.val + r.count * 4 / 2) / (r.count * 4)
    let k : ReadingClass :=
      if r.saturated then .saturated
      else if 4 ≤ r.count then .band (w.cfg.thresholds.countP fun x => decide (x ≤ min 200000 ohms))
      else match r.level with
        | .low => .stallLow
        | .mid => .stallMid
        | .high => .stallHigh
    let count := if w.candidate = some k then min w.cfg.confirm (w.candCount + 1) else 1
    let confirmed := if count = w.cfg.confirm then some k else w.confirmed
    let meaning (x : Option ReadingClass) : Option BandMeaning :=
      match x with
      | some (.band i) => w.cfg.meanings[i]?
      | _ => none
    let wiring : WiringClass :=
      match confirmed with
      | some .saturated | some .stallLow => .shortGround
      | some .stallMid => .openLoop
      | some .stallHigh => .shortBattery
      | _ => if meaning confirmed = some .faultShort then .shortGround
        else if meaning confirmed = some .faultOpen then .openLoop else .none
    ∃ t, exec (.conversionComplete periods pin bias) s = .next t ∧
      t.ci.wired[ch] = { w with
        candidate := some k
        candCount := count
        confirmed
        wiring
        status := if wiring ≠ .none then .fault else if w.status = .init ∧ confirmed = none then .init else .valid
        value := if w.cfg.kind = .sender ∧ meaning (some k) = some .value ∧ meaning confirmed = some .value
          then some (min 200000 ohms) else w.value
        reading := if w.cfg.kind = .switch ∧ meaning confirmed = some .active then some .active
          else if w.cfg.kind = .switch ∧ meaning confirmed = some .inactive then some .inactive else w.reading
        switched := t.ci.wired[ch].switched
        limited := w.limited || decide (r.saturated = false ∧ 4 ≤ r.count ∧ 200000 < ohms) } ∧
      (∀ x : Fin 24, x ≠ ch →
        t.ci.wired[x] = { s.ci.wired[x] with switched := t.ci.wired[x].switched }) ∧
      (∀ p : Fin 24,
        let now (q : Fin 24) : Prop := s.ci.paired p q ∧ (ch = p ∨ ch = q) ∧ t.ci.wired[p].status = .fault ∧
          t.ci.wired[q].status = .valid
        (t.ci.wired[p].switched = true ↔ s.ci.wired[p].switched = true ∨ ∃ q, now q) ∧
        ∀ q, now q → s.ci.wired[p].switched = false →
          s.hasPlaced t [(.switched, p.val, some (BitVec.ofNat 16 q.val))]) ∧
      (∀ p : Fin 24,
        (∀ q, t.ci.paired p q → t.ci.wired[p].switched = true → t.ci.wired[q].shows (t.ci.eff (wiredCh p))) ∧
        ((∀ q, ¬ t.ci.paired p q) ∨ t.ci.wired[p].switched = false →
          t.ci.wired[p].shows (t.ci.eff (wiredCh p)))) ∧
      t.ci = { s.ci with wired := t.ci.wired } ∧ t.pending = s.pending ∧ t.sc.opState = s.sc.opState ∧
      (s.sc.opState ≠ .parked → (∀ g : Fin 8, s.gaugeTakes t g) ∧ ∀ i : Fin 8, s.leafTakes t i) ∧
      (s.sc.opState = .run → ∀ w : Fin 64, s.warnTakes t w)) ∧
  ∀ (s : State) (c : Conversion) (ch : Fin 24) (periods pin bias spent : Nat), s.gateEnds c spent → c.target = .wired ch →
    s.sc.opState = .parked → s.sc.ignPending = false →
    s.ci.judgement ≠ some .good ∨ s.ci.wired[ch].cfg.kind = .off ∨ s.ci.refFault = true →
    ∃ t, exec (.conversionComplete periods pin bias) s = .next t ∧ t.ci = s.ci ∧ t.sc.opState = .parked

/-- A REFERENCE result is judged against the window and moves failure count, REFERENCE_FAULT and the statuses of the wired
channels as R58 to R60 say, a SUPPLY result the supply voltage and state as R61 says; nothing else of the CI changes. In
PARKED they are judged alike, but the channels outside the watch set keep their statuses (R71) and, DEDUCED, their classes
(log 47). In RUN and SHUTDOWN gauges and doors, and in RUN warnings, take the change (R74, R97, R128). A supply that falls to
LOW holds every powered gauge (R84); one that leaves LOW returns each held gauge to its resume state, a homing from its
beginning, counted and at the third handed to the FM where the gauge had homed before in this RUN (R85). -/
def Obligations.ReferenceAndSupplyResultsAreJudged : Prop :=
  ∀ (s : State) (c : Conversion) (periods pin bias spent : Nat), s.gateEnds c spent →
    s.sc.opState = .run ∨ s.sc.opState = .shutdown ∨
      (s.sc.opState = .parked ∧ s.cu.pos.following s.sc.watchSet.length ≠ .reference) →
    let n := min periods 65535
    let good := s.ci.nRefMin ≤ n ∧ n ≤ s.ci.nRefMax ∧ n < 65535
    let report (e : Event) : Link := s.li.place e 0 (some (BitVec.ofNat 16 n))
    let judged (j : Judgement) : Interp := { s.ci with passCount := some n, judgement := some j }
    let each (f : Wired → Wired) (t : State) : Prop :=
      ∀ ch : Fin 24, t.ci.wired[ch] =
        if s.ci.wired[ch].cfg.kind = .off ∨ (s.sc.opState = .parked ∧ ch ∉ s.sc.watchSet) then s.ci.wired[ch]
        else f s.ci.wired[ch]
    let before := s.ci.supply
    let mv := min 60000 (4 * n)
    let after : SupplyState :=
      if mv < 16000 then .low else if 32000 < mv then .high
      else if before = .low ∧ mv < 17000 then .low else if before = .high ∧ 31000 < mv then .high else .normal
    (c.target = .reference →
      ∃ t, exec (.conversionComplete periods pin bias) s = .next t ∧
        (good → s.ci.refFault = false → t.ci = { judged .good with failCount := 0 } ∧
          t.li = if s.ci.failCount = 0 then s.li else report .referenceGood) ∧
        (good → s.ci.refFault = true →
          t.ci = { judged .good with failCount := 0, refFault := false, wired := t.ci.wired } ∧
          each (fun w => { w with status := .init, candidate := none, candCount := 0, confirmed := none,
                                  wiring := .none }) t ∧ t.fm.present (.system 0) = false) ∧
        (¬ good → s.ci.failCount < 2 →
          t.ci = { judged .failed with failCount := s.ci.failCount + 1, wired := t.ci.wired } ∧
          each (fun w => { w with status := if w.status = .valid then .held else w.status }) t) ∧
        (¬ good → 2 ≤ s.ci.failCount → s.ci.refFault = false →
          t.ci = { judged .failed with failCount := 3, refFault := true, wired := t.ci.wired } ∧
          each (fun w => { w with status := .fault, wiring := .undetermined }) t ∧
          t.fm.present (.system 0) = true ∧ ∀ ch : Fin 24, s.ci.wired[ch].cfg.kind ≠ .off →
            s.sc.opState ≠ .parked ∨ ch ∈ s.sc.watchSet → t.fm.present (.wiring ch) = false) ∧
        (¬ good → 2 ≤ s.ci.failCount → s.ci.refFault = true → t.ci = judged .failed ∧ t.li = s.li) ∧
        (s.sc.opState ≠ .parked → (∀ g : Fin 8, s.gaugeTakes t g) ∧ ∀ i : Fin 8, s.leafTakes t i) ∧
        (s.sc.opState = .run → ∀ w : Fin 64, s.warnTakes t w)) ∧
    (c.target = .supply →
      ∃ t, exec (.conversionComplete periods pin bias) s = .next t ∧
        t.ci = { s.ci with supplyMv := some mv, supply := after } ∧
        (after = before → t.li = s.li ∧ t.ge = s.ge ∧ t.wm = s.wm ∧ t.fm = s.fm) ∧
        (after ≠ before → t.fm.present (.system 1) = decide (after = .low) ∧
          t.fm.present (.system 2) = decide (after = .high)) ∧
        (after = .low → before ≠ .low → ∀ g : Fin 8, s.ge[g].pointer ≠ .unpowered → t.ge[g].pointer = .hold) ∧
        (before = .low → after ≠ .low → ∀ g : Fin 8, let x := s.ge[g]
          (x.pointer ≠ .hold → s.sc.service = false → t.ge[g] = x) ∧
          (∀ st, x.pointer = .hold → x.resume = some st → st ≠ .homing → st ≠ .test ∨ s.sc.service = false →
            t.ge[g] = { x with pointer := st, resume := none, updateMs := 0 }) ∧
          (x.pointer = .hold → x.resume = some .test → s.sc.service = true → t.ge[g].pos = x.pos ∧
            t.ge[g].resume = none ∧ t.ge[g].updateMs = 0 ∧ (t.ge[g].pointer = .test ∨ t.ge[g].pointer = .tracking)) ∧
          ∀ r, x.pointer = .hold → x.resume = some .homing → x.record = some r →
            let again := min 255 (x.restarts + 1)
            t.ge[g] = { x with pointer := .homing, resume := none, updateMs := 0, pos := r.span, homingPhase := .countdown
                               stopPulses := r.span / 8, homed := true
                               restarts := if x.homed then again else x.restarts } ∧
            t.fm.present (.gauge g) = (s.fm.present (.gauge g) || (x.homed && decide (3 ≤ again)))))

/-- A change of the loop at a wired pin moves a powered comparator by the window of R38, and a change of level sets an ARMED
latch with the effect of R39 in each operating and watch state; WATCH_SETTLE_END begins the watch pass and WATCH_QUIET ends
the wake (R28, R38, R39; that WATCH_QUIET has a step of its own is the model's choice, log 8, and that either of the two, not
due, changes nothing is too, log 5). -/
def Obligations.ComparatorEventsQueueOrWake : Prop :=
  ∀ s : State,
    (∀ (ch : Fin 24) (ohms : Nat),
      let thr := s.ci.wired[ch].cfg.watchThr
      let old := s.cu.comparator[ch]
      let new : Comparator := if 17 * thr < 16 * ohms then .above else if 16 * ohms < 15 * thr then .below else old
      let loop : ConvUnit := { s.cu with loopOhms := s.cu.loopOhms.set ch ohms }
      let moved : ConvUnit := { loop with comparator := s.cu.comparator.set ch new }
      let latched : ConvUnit := { moved with latch := s.cu.latch.set ch .set }
      (old = .unpowered ∨ new = old → exec (.comparatorEvent ch ohms) s = .next { s with cu := loop }) ∧
      (old ≠ .unpowered → new ≠ old → s.cu.latch[ch] = .set →
        exec (.comparatorEvent ch ohms) s = .next { s with cu := moved }) ∧
      (old ≠ .unpowered → new ≠ old → s.cu.latch[ch] = .armed →
        (s.sc.opState = .run ∨ s.sc.opState = .shutdown → exec (.comparatorEvent ch ohms) s = .next { s with cu :=
          { latched with queue := if s.cu.queue.any (fun e => decide (e.ch = ch)) then s.cu.queue
                                  else s.cu.queue ++ [{ ch, hostMark := false }] } }) ∧
        (s.sc.opState = .parked → s.sc.watch = .quiet → exec (.comparatorEvent ch ohms) s = .next
          { s with li := s.li.place .watchWake 0 (some (BitVec.ofNat 16 ch.val))
                   sc := { s.sc with watch := .settling }
                   cu := { latched with path := .settling, settleMs := 0 } }) ∧
        (s.sc.opState = .parked → s.sc.watch = .settling ∨ s.sc.watch = .waking →
          exec (.comparatorEvent ch ohms) s = .next { s with cu := latched }) ∧
        (s.sc.opState = .parked → s.sc.watch = .draining → exec (.comparatorEvent ch ohms) s = .next
          { s with sc := { s.sc with watch := .waking }
                   cu := { latched with pos := .reference, elapsedQ := 0
                                        inFlight := some (s.begun .reference .pass false) } }))) ∧
    (s.sc.opState = .parked → s.sc.watch = .settling → 20 ≤ s.cu.settleMs → exec .watchSettleEnd s = .next
      { s with sc := { s.sc with watch := .waking }
               cu := { s.cu with path := .ready, pos := .reference, elapsedQ := 0
                                 inFlight := some (s.begun .reference .pass false) } }) ∧
    (s.sc.opState ≠ .parked ∨ s.sc.watch ≠ .settling ∨ s.cu.settleMs < 20 → exec .watchSettleEnd s = .next s) ∧
    (s.sc.opState = .parked → s.sc.watch = .draining → s.jc.queue = [] →
      s.jc.inFlight = none ∨ s.jc.inFlight = some .erase → exec .watchQuiet s = .next
      { s with li := s.li.place .watchQuiet 0 none
               sc := { s.sc with watch := .quiet }
               cu := { s.cu with path := .unpowered, settleMs := 0 } }) ∧
    (s.sc.opState ≠ .parked ∨ s.sc.watch ≠ .draining ∨ s.jc.queue ≠ [] → exec .watchQuiet s = .next s)

/-- The timers of a network channel, due in RUN, move it from VALID to HELD and from HELD and INIT to LOST and hand NETLOST
to the FM; the designated channel's change moves the motion state, and one other than STANDSTILL ends the session;
STANDSTILL_TIMER_EXPIRY makes it STANDSTILL; gauges, doors and warnings take what has changed (R74, R97, R128). A timer not
due changes nothing (the model's choice, log 5) (R65, R67, R182). -/
def Obligations.NetworkAndStandstillTimersExpire : Prop :=
  ∀ s : State,
    let moved (n : Fin 16) (x : Net) (t : State) : Prop :=
      t.ci.net = s.ci.net.set n x ∧ t.ci = { s.ci with net := t.ci.net, motion := t.ci.motion,
                                                       standstillT := t.ci.standstillT } ∧
        (s.ci.motionChannel ≠ some (netCh n) → t.ci.motion = s.ci.motion ∧ t.ci.standstillT = s.ci.standstillT) ∧
        t.fm.present (.netlost n) = decide (x.status = .lost) ∧ t.cu = s.cu ∧ t.pending = s.pending ∧
        t.sc.opState = .run ∧ s.handsMotion t ∧ (∀ g : Fin 8, s.gaugeTakes t g) ∧ (∀ i : Fin 8, s.leafTakes t i) ∧
        ∀ w : Fin 64, s.warnTakes t w
    (∀ n : Fin 16, s.sc.opState = .run →
      let x := s.ci.net[n]
      (x.status = .valid → x.freshT = some 0 → ∃ t, exec (.freshnessExpiry n) s = .next t ∧
        moved n { x with status := .held, freshT := none, lostT := some (100 * x.cfg.lost) } t ∧
        (s.ci.motionChannel = some (netCh n) → t.ci.motion = s.ci.motion ∧ t.ci.standstillT = none)) ∧
      (x.status = .held → x.lostT = some 0 → ∃ t, exec (.lostTimerExpiry n) s = .next t ∧
        moved n { x with status := .lost, freshT := none, lostT := none, initT := none } t ∧
        (s.ci.motionChannel = some (netCh n) → t.ci.motion = .unknown ∧ t.ci.standstillT = none)) ∧
      (x.status = .init → x.initT = some 0 → ∃ t, exec (.initialTimerExpiry n) s = .next t ∧
        moved n { x with status := .lost, freshT := none, lostT := none, initT := none } t ∧
        (s.ci.motionChannel = some (netCh n) → t.ci.motion = .unknown ∧ t.ci.standstillT = none))) ∧
    (∀ n : Fin 16,
      (s.sc.opState ≠ .run ∨ s.ci.net[n].freshT ≠ some 0 → exec (.freshnessExpiry n) s = .next s) ∧
      (s.sc.opState ≠ .run ∨ s.ci.net[n].lostT ≠ some 0 → exec (.lostTimerExpiry n) s = .next s) ∧
      (s.sc.opState ≠ .run ∨ s.ci.net[n].initT ≠ some 0 → exec (.initialTimerExpiry n) s = .next s)) ∧
    (s.sc.opState = .run → s.ci.standstillT = some 0 → ∃ t, exec .standstillTimerExpiry s = .next t ∧
      t.ci = { s.ci with motion := .standstill, standstillT := none } ∧ t.cu = s.cu ∧ t.pending = s.pending ∧
      t.sc = s.sc ∧ t.dm = s.dm ∧ (s.ci.motion = .standstill → t = { s with ci := t.ci }) ∧ s.handsMotion t ∧
      ∀ w : Fin 64, s.warnTakes t w) ∧
    (s.sc.opState ≠ .run ∨ s.ci.standstillT ≠ some 0 → exec .standstillTimerExpiry s = .next s)

/-! ## Gauges -/

namespace Sys2Proof.Machine

/-- A gauge after its update has sent its steps: the commanded position moves (R77). -/
def Gauge.moved (x : Gauge) (pos : Nat) : Gauge := { x with pos, steps := (pos : Int) - x.pos }

/-- A position moved toward a goal by at most a limit (R79, R88). -/
def towards (pos goal limit : Nat) : Nat := if pos ≤ goal then min goal (pos + limit) else max goal (pos - limit)

/-- The filter accumulator after one TRACKING update (R78). -/
def filterNext (k acc target : Nat) : Int :=
  let d : Int := 256 * target - acc
  if d.natAbs < 2 ^ k then acc + d.sign else acc + d.sign * (d.natAbs / 2 ^ k : Nat)

/-- A gauge's 20 ms: twenty ticks and its update. -/
def gaugePeriod (g : Fin 8) : List Instr := List.replicate 20 .tripClockTick ++ [.gaugeUpdate g]

end Sys2Proof.Machine

/-- GAUGE_UPDATE, due, does in each driven state what R77 gives: damping and slew in TRACKING, one step of homing, sweep or
parking, slew toward the test position in TEST, with the report of a state reached; nothing but that gauge and the report
queue changes. It does nothing when the gauge is not driven or its 20 ms have not passed (the model's choice, log 5) (R78,
R79, R82, R83, R86, R88). -/
def Obligations.GaugeUpdatesActByPointerState : Prop :=
  ∀ (s : State) (g : Fin 8) (r : GaugeRec), s.ge[g].record = some r →
    let x := s.ge[g]
    let y : Gauge := { x with updateMs := x.updateMs - 20 }
    let gives (z : Gauge) : Prop := exec (.gaugeUpdate g) s = .next { s with ge := s.ge.set g z }
    let enters (z : Gauge) (st : PointerState) : Prop := exec (.gaugeUpdate g) s =
      .next { s with ge := s.ge.set g { z with pointer := st }
                     li := s.li.place .pointerState g.val (some (BitVec.ofNat 16 st.code)) }
    (20 ≤ x.updateMs →
      (x.pointer = .tracking →
        let acc := (filterNext r.k x.acc x.target).toNat
        let f := (acc + 128) / 256
        gives (({ y with acc, filtered := f } : Gauge).moved (towards x.pos f r.slew))) ∧
      (x.pointer = .homing → x.homingPhase = .countdown → 16 < x.pos → gives (y.moved (x.pos - 16))) ∧
      (x.pointer = .homing → x.homingPhase = .countdown → x.pos ≤ 16 →
        gives { y.moved 0 with homingPhase := .stopPulses }) ∧
      (x.pointer = .homing → x.homingPhase = .stopPulses → 16 < x.stopPulses →
        gives { y with steps := -16, stopPulses := x.stopPulses - 16 }) ∧
      (x.pointer = .homing → x.homingPhase = .stopPulses → x.stopPulses ≤ 16 →
        enters { y with steps := -x.stopPulses, stopPulses := 0, acc := 0, filtered := 0, sweepPhase := .up }
          (if r.sweep then .sweep else .tracking)) ∧
      (x.pointer = .sweep → x.sweepPhase = .up → x.pos + 16 < r.span → gives (y.moved (x.pos + 16))) ∧
      (x.pointer = .sweep → x.sweepPhase = .up → r.span ≤ x.pos + 16 →
        gives { y.moved r.span with sweepPhase := .down }) ∧
      (x.pointer = .sweep → x.sweepPhase = .down → 16 < x.pos → gives (y.moved (x.pos - 16))) ∧
      (x.pointer = .sweep → x.sweepPhase = .down → x.pos ≤ 16 → enters (y.moved 0) .tracking) ∧
      (∀ n, x.pointer = .test → x.testPos = some n → towards x.pos n r.slew ≠ n ∨ x.testDue = false →
        gives (y.moved (towards x.pos n r.slew))) ∧
      (∀ n, x.pointer = .test → x.testPos = some n → towards x.pos n r.slew = n → x.testDue = true →
        exec (.gaugeUpdate g) s = .next
          { s with ge := s.ge.set g { y.moved n with testDue := false }
                   li := s.li.place .testReached g.val (some (BitVec.ofNat 16 n)) }) ∧
      (x.pointer = .parking → 0 < x.pos → gives (y.moved (x.pos - 16))) ∧
      (x.pointer = .parking → x.pos = 0 →
        enters { y with steps := 0, resume := none, updateMs := 0, testPos := none, testDue := false } .unpowered)) ∧
    (x.updateMs < 20 ∨ x.pointer = .unpowered ∨ x.pointer = .hold → exec (.gaugeUpdate g) s = .next s)

/-- A homing run ends at the zero stop after span/16 rounded up plus the stop pulses over 16 rounded up updates, and a
parking run unpowers the gauge after pos/16 rounded up plus one, one update every 20 ms and no other event in between (R82,
R86); that twenty TRIP_CLOCK_TICKs make an update due is the model's choice (log 7). -/
def Obligations.HomingAndParkingEndInTime : Prop :=
  ∀ (s : State) (g : Fin 8) (r : GaugeRec), s.ge[g].record = some r → s.ge[g].updateMs = 0 →
    (s.ge[g].pointer = .homing → s.ge[g].homingPhase = .countdown → s.ge[g].pos = r.span →
      s.ge[g].stopPulses = r.span / 8 → 100 ≤ r.span →
      let n := (r.span + 15) / 16 + (r.span / 8 + 15) / 16
      ∃ t, runCommands (List.replicate n (gaugePeriod g)).flatten s = .next t ∧ t.ge[g].pos = 0 ∧ t.ge[g].acc = 0 ∧
        t.ge[g].pointer = (if r.sweep then .sweep else .tracking)) ∧
    (s.ge[g].pointer = .parking →
      let n := (s.ge[g].pos + 15) / 16 + 1
      ∃ t, runCommands (List.replicate n (gaugePeriod g)).flatten s = .next t ∧ t.ge[g].pos = 0 ∧
        t.ge[g].pointer = .unpowered)

/-- The arithmetic of measuring and showing: the resistance and the curve are quotients rounded to nearest, the value between
two points lies between theirs, the dial map is monotone, rounded to nearest and in 0..span, the filter moves by the fraction
of its distance with the least move 1 and never passes its goal, and the slew never moves by more than its limit (R52, R75,
R76, R78, R79). -/
def Obligations.MeasuringArithmeticRoundsToNearest : Prop :=
  (∀ (rRef nRef n : Nat) (gate : Fin 4), 0 < n →
    let x := resistance rRef nRef n gate
    2 * (rRef * nRef * 2 ^ gate.val) < 2 * x * (4 * n) + 4 * n ∧
      2 * x * (4 * n) ≤ 2 * (rRef * nRef * 2 ^ gate.val) + 4 * n) ∧
  (∀ (a b : CurvePoint) (x : Int), a.x < b.x → a.x ≤ x → x < b.x →
    let y := a.between b x
    (2 * ((y - a.y) * (b.x - a.x) - (x - a.x) * (b.y - a.y))).natAbs ≤ (b.x - a.x).natAbs ∧
      min a.y b.y ≤ y ∧ y ≤ max a.y b.y ∧ (x = a.x → y = a.y)) ∧
  (∀ (r : GaugeRec) (y : Int), r.vMin < r.vMax →
    (y ≤ r.vMin → r.dial y = 0) ∧ (r.vMax ≤ y → r.dial y = r.span) ∧ r.dial y ≤ r.span ∧
    (∀ z, y ≤ z → r.dial y ≤ r.dial z) ∧
    (r.vMin < y → y < r.vMax →
      2 * ((y - r.vMin) * r.span) - (r.vMax - r.vMin) < 2 * r.dial y * (r.vMax - r.vMin) ∧
        2 * r.dial y * (r.vMax - r.vMin) ≤ 2 * ((y - r.vMin) * r.span) + (r.vMax - r.vMin))) ∧
  (∀ k acc target : Nat,
    let a := dampAcc k acc target
    (a : Int) = filterNext k acc target ∧ (acc ≤ 256 * target → acc ≤ a ∧ a ≤ 256 * target) ∧
      (256 * target ≤ acc → 256 * target ≤ a ∧ a ≤ acc) ∧ (k = 0 → a = 256 * target) ∧
      (acc ≠ 256 * target → a ≠ acc)) ∧
  ∀ p goal limit : Nat,
    let q := slewTo p goal limit
    q = towards p goal limit ∧ (p ≤ goal → p ≤ q ∧ q ≤ goal ∧ q - p = min limit (goal - p)) ∧
      (goal ≤ p → goal ≤ q ∧ q ≤ p ∧ p - q = min limit (p - goal))

/-! ## Warnings, lamps and chime -/

/-- DELAY_EXPIRY in DELAYING and RE_ALERT in ACKED, due in RUN, make the instance ACTIVE with a fresh activation sequence and
place it behind the higher priorities and before its own; the AO has the new list, the report is placed, a fault-linked first
entry is handed to the FM, and a STOP warning ends running tests. A timer that is not due changes nothing (the model's
choice, log 5) (R98, R100 to R103, R109, R185). -/
def Obligations.WarningTimersMakeTheInstanceActive : Prop :=
  ∀ (s : State) (w : Fin 64) (d : WarnDef), s.wm.defs[w] = some d →
    let prio (x : Fin 64) : Nat := (((s.wm.defs[x]).map fun q : WarnDef => q.priority).getD .notice).code
    let active (t : State) : Prop :=
      t.wm = { s.wm with
        inst := s.wm.inst.set w { s.wm.inst[w] with state := .active, delayT := none, alertT := none,
                                                    act := some s.wm.counter }
        counter := s.wm.counter + 1
        list := s.wm.list.filter (fun x => decide (x ≠ w ∧ prio w < prio x)) ++ w ::
          s.wm.list.filter (fun x => decide (x ≠ w ∧ prio x ≤ prio w)) } ∧
      t.hasReport .warningState w.val (some (BitVec.ofNat 16 (2 + 256 * d.priority.code))) ∧
      t.ao.listCopy.map (·.w) = t.wm.list ∧ t.ao.claimant = t.claimantNow ∧
      (d.priority = .stop → s.sc.service = true → t.testsInForce = false) ∧ (d.priority ≠ .stop → t.ge = s.ge) ∧
      t.sc = s.sc ∧ t.cu = s.cu ∧ t.ci = s.ci ∧ t.dm = s.dm ∧ t.pending = s.pending
    (s.sc.opState = .run → s.warnSound →
      (s.wm.inst[w].state = .delaying → s.wm.inst[w].delayT = some 0 → ∃ t, exec (.delayExpiry w) s = .next t ∧
        active t ∧ (d.faultLink = true → t.fm.present (.warning w) = true) ∧
        (d.faultLink = false → t.fm = s.fm ∧ t.jc = s.jc)) ∧
      (s.wm.inst[w].state = .acked → s.wm.inst[w].alertT = some 0 → ∃ t, exec (.reAlert w) s = .next t ∧
        active t ∧ t.fm = s.fm ∧ t.jc = s.jc)) ∧
    (s.sc.opState ≠ .run ∨ s.wm.inst[w].state ≠ .delaying ∨ s.wm.inst[w].delayT ≠ some 0 →
      exec (.delayExpiry w) s = .next s) ∧
    (s.sc.opState ≠ .run ∨ s.wm.inst[w].state ≠ .acked ∨ s.wm.inst[w].alertT ≠ some 0 →
      exec (.reAlert w) s = .next s)

/-- ENVELOPE_STEP, due, advances the phase round 0 to 15; the completion of a pattern's last repeat finishes its warning's
activation or ends the test and gives the chime to the claimant, and a claimant that waits takes the chime at the end of the
on-period, from phase 0; outside RUN the generator stops with the switch to no source. BULB_CHECK_END lets every lamp take
its claim. By the model's choice the time over a step is carried on (log 7), a source that has lost its pattern in CONFIG
gives way at the next step (log 43), the burst progress stops at 15 (log 27), and a command that is not due changes nothing
(log 5); that the number of a chime test says whether it is the one running is DEDUCED (log 16) (R115, R116, R118, R119, R121,
R123, R124). -/
def Obligations.EnvelopeStepsCarryTheChime : Prop :=
  ∀ s : State,
    let phase := (s.ao.phase + 1) % 16
    let stepped : Alert := { s.ao with phase, genQ := s.ao.genQ - 250 }
    let switched : Alert :=
      if s.sc.opState = .run ∨ s.ao.claimant ≠ .none then { stepped with source := s.ao.claimant, burst := 0, phase := 0 }
      else { stepped with source := .none, burst := 0, phase := 0, genRunning := false, genQ := 0 }
    (s.ao.genRunning = true → 250 ≤ s.ao.genQ →
      (s.ao.source = .none → exec .envelopeStep s = .next { s with ao := stepped }) ∧
      (s.ao.source ≠ .none → s.sourcePattern = none →
        exec .envelopeStep s = .next { s with ao := if s.ao.claimant = s.ao.source then stepped else switched }) ∧
      ∀ p : Pattern, s.sourcePattern = some p →
        let completed := phase % envPeriod p.env = 0
        let burst := if completed then min 15 (s.ao.burst + 1) else s.ao.burst
        let last := completed ∧ p.rep ≠ 0 ∧ burst = p.rep
        let onEnds := if p.env = 0 then phase = 0 else envOn p.env phase = false
        (last → ∃ t, exec .envelopeStep s = .next t ∧ t = { s with li := t.li, ao := t.ao } ∧
          t.ao.source = t.ao.claimant ∧ t.ao.claimant = t.claimantNow ∧ t.ao.drive = s.ao.drive ∧
          (t.ao.source ≠ s.ao.source → t.ao.phase = 0 ∧ t.ao.burst = 0) ∧
          (s.sc.opState = .run ∨ t.ao.source ≠ .none → t.ao.genRunning = true ∧ t.ao.genQ = s.ao.genQ - 250) ∧
          (s.sc.opState ≠ .run → t.ao.source = .none → t.ao.genRunning = false ∧ t.ao.genQ = 0) ∧
          (∀ w act, s.ao.source = .owner w act →
            t.ao.finished = s.ao.finished.set w (some act) ∧ t.li = s.li ∧ t.ao.chimeTest = s.ao.chimeTest) ∧
          ∀ q, s.ao.source = .test q s.ao.testGen → s.ao.chimeTest.isSome →
            t.ao.chimeTest = none ∧ t.li = s.li.place .chimeTestDone 0 (some (BitVec.ofNat 16 q.val)) ∧
              t.ao.finished = s.ao.finished) ∧
        (¬ last → onEnds → s.ao.claimant ≠ s.ao.source → exec .envelopeStep s = .next { s with ao := switched }) ∧
        (¬ last → ¬ onEnds ∨ s.ao.claimant = s.ao.source →
          exec .envelopeStep s = .next { s with ao := { stepped with burst } })) ∧
    (s.ao.genRunning = false ∨ s.ao.genQ < 250 → exec .envelopeStep s = .next s) ∧
    (s.ao.bulb = some 0 → ∃ t, exec .bulbCheckEnd s = .next t ∧
      (∀ l : Fin 24, t.ao.drive[l] = match s.ao.overrides[l] with
        | some true => .lit
        | some false => .dark
        | none => s.lampClaim l) ∧
      t = { s with ao := { s.ao with bulb := none, drive := t.ao.drive } }) ∧
    (s.ao.bulb ≠ some 0 → exec .bulbCheckEnd s = .next s)

/-! ## Doors and faults -/

/-- TRAVEL_TIMER_EXPIRY, due, takes a leaf in OPENING to OPEN, and LOCK_TIMER_EXPIRY sets the lock fault flag of a leaf that
stays CLOSED and hands DOOR/LOCK to the FM; other leaves and the statistics stay. A timer that is not due changes nothing
(the model's choice, log 5) (R130, R131, R134, R135). -/
def Obligations.DoorTimersOpenOrRaiseTheLockFault : Prop :=
  ∀ (s : State) (i : Fin 8) (c : LeafCfg), s.dm.leaves[i].cfg = some c →
    let l := s.dm.leaves[i]
    let live := s.sc.opState = .run ∨ s.sc.opState = .shutdown
    (live → l.state = .opening → l.travelT = some 0 → l.readings[slotClosed] ≠ .active → l.hasOpenEnd = false →
      ∃ t, exec (.travelTimerExpiry i) s = .next t ∧
        t.dm.leaves = s.dm.leaves.set i { l with state := .opened, travelT := none, lockT := none, closingT := none,
                                                 cycleMark := true, inputFault := false } ∧
        t.dm.stats = s.dm.stats ∧ t.dm.doorsClear = false ∧ t.dm.doorway[c.doorway] = t.dm.worst c.doorway ∧
        (∀ w : Fin 4, w ≠ c.doorway → t.dm.doorway[w] = s.dm.doorway[w]) ∧ t.sc = s.sc ∧ t.cu = s.cu ∧ t.ci = s.ci ∧
        t.pending = s.pending) ∧
    (live → l.state = .closed → l.lockT = some 0 → l.lockFault = false →
      ∃ t, exec (.lockTimerExpiry i) s = .next t ∧
        t.dm.leaves = s.dm.leaves.set i { l with lockT := none, lockFault := true, inputFault := false } ∧
        t.dm = { s.dm with leaves := t.dm.leaves, conds := t.dm.conds } ∧ t.fm.present (.doorLock i) = true ∧
        t.sc = s.sc ∧ t.cu = s.cu ∧ t.ci = s.ci ∧ t.pending = s.pending) ∧
    (¬ live ∨ l.travelT ≠ some 0 → exec (.travelTimerExpiry i) s = .next s) ∧
    (¬ live ∨ l.lockT ≠ some 0 → exec (.lockTimerExpiry i) s = .next s)

namespace Sys2Proof.Machine

/-- The record of an entry is in the commit queue or being programmed (R156): its displaces field is recorded while displaces
pending is set. -/
def State.recordsEntry (t : State) (e : FaultEntry) : Prop :=
  t.holdsRecord (.faultEntry { e with displaces := if e.dispPending then e.displaces else none, dispPending := false })

end Sys2Proof.Machine

/-- CONFIRM_TIMER_EXPIRY, due in RUN and SHUTDOWN, confirms its source: the entry with its code is updated, or a new one
created where the index has room or after the displacement of the weakest entry that is not CONFIRMED, or, where there is
none, the fault is not stored and the memory-full flag set; each with its record and reports. A timer that is not due changes
nothing (the model's choice, log 5) (R149, R152, R153, R157, R158). -/
def Obligations.ConfirmationsEnterTheFaultIndex : Prop :=
  ∀ (s : State) (src : FaultSource),
    (s.sc.opState = .run ∨ s.sc.opState = .shutdown → s.fm.tracker src = { state := .pending, timer := some 0 } →
      s.fm.sound →
      let code := faultCode src
      let created (displaces : Option FaultSource) : FaultEntry :=
        { src, severity := s.severity src, occurrence := 1, firstSeen := s.sc.opSeconds, lastSeen := s.sc.opSeconds,
          firstCycle := s.sc.cycle, lastCycle := s.sc.cycle, displaces, dispPending := displaces.isSome
          frame := s.fm.freeze.map fun sel => { sel, value := s.freezeValue sel } }
      let unconfirmed (e : FaultEntry) : Prop := (s.fm.tracker e.src).state ≠ .confirmed
      ∃ t, exec (.confirmTimerExpiry src) s = .next t ∧ t = { s with li := t.li, fm := t.fm, jc := t.jc } ∧
        (∀ x : FaultSource, t.fm.tracker x = if x = src then { state := .confirmed, timer := none }
          else s.fm.tracker x) ∧
        t.fm.presence = s.fm.presence ∧ t.fm.freeze = s.fm.freeze ∧ t.fm.clearPending = s.fm.clearPending ∧
        (∀ e ∈ s.fm.index, e.src = src →
          let e' : FaultEntry := { e with severity := s.severity src, occurrence := min 255 (e.occurrence + 1)
                                          lastSeen := max e.lastSeen s.sc.opSeconds
                                          lastCycle := max e.lastCycle s.sc.cycle }
          t.fm.index = s.fm.index.map (fun x => if x.src = src then e' else x) ∧ t.fm.full = s.fm.full ∧
            t.recordsEntry e' ∧
            t.li = s.li.place .confirmedRepeat code (some (BitVec.ofNat 16 e'.occurrence))) ∧
        ((∀ e ∈ s.fm.index, e.src ≠ src) → s.fm.index.length < 32 →
          t.fm.index.Perm (created none :: s.fm.index) ∧ t.fm.full = s.fm.full ∧ t.recordsEntry (created none) ∧
            t.li = s.li.place .confirmedNew code (some 1)) ∧
        ((∀ e ∈ s.fm.index, e.src ≠ src) → s.fm.index.length = 32 →
          (∀ v ∈ s.fm.index, unconfirmed v → (∀ u ∈ s.fm.index, unconfirmed u → u = v ∨ v.goesBefore u) →
            t.fm.index.Perm (created (some v.src) :: s.fm.index.filter fun e => decide (e ≠ v)) ∧
              t.fm.full = s.fm.full ∧ t.recordsEntry (created (some v.src)) ∧
              (∀ k ∈ t.jc.queue, k.key ≠ .fault v.src) ∧
              t.li = (s.li.place .displaced (faultCode v.src) (some (BitVec.ofNat 16 code))).place .confirmedNew code
                (some 1)) ∧
          ((∀ e ∈ s.fm.index, ¬ unconfirmed e) → t.fm.index = s.fm.index ∧ t.fm.full = true ∧ t.jc = s.jc ∧
            t.li = s.li.place .notStored code (some (if s.fm.full then 0 else 1))))) ∧
    (s.sc.opState ≠ .run ∧ s.sc.opState ≠ .shutdown ∨ s.fm.tracker src ≠ { state := .pending, timer := some 0 } →
      exec (.confirmTimerExpiry src) s = .next s)

/-! ## Time -/

/-- TRIP_CLOCK_TICK advances the trip clock by 1 ms, wrapping, and with it every timer that runs in the present operating
state, and changes nothing else: no report, no output, no register of another kind. In the journal the time of a program
runs while one is in flight or finishing, that of an erase, up to its 120 ms, while it is in flight, that of the rebuild in
STARTING once no program is finishing (R8, R165, R171, R173, R179; that the timers follow the tick, and that an erase's time
stops at 120 ms, is the model's choice, log 7). -/
def Obligations.TheTickAdvancesRunningTimers : Prop :=
  ∀ s : State, ∃ t, exec .tripClockTick s = .next t ∧
    let down (x : Option Nat) : Option Nat := x.map (· - 1)
    let run := s.sc.opState = .run
    let live := s.sc.opState = .run ∨ s.sc.opState = .shutdown
    t.li = { s.li with tripClock := s.li.tripClock + 1
                       gapMs := if s.li.receiver = .assembling then s.li.gapMs + 1 else s.li.gapMs } ∧
    t.sc = { s.sc with steadyMs := if s.sc.ignRaw = s.sc.ignOn then s.sc.steadyMs else s.sc.steadyMs + 1
                       remainderMs := if run then s.sc.remainderMs + 1 else s.sc.remainderMs } ∧
    t.cu = { s.cu with elapsedQ := if s.cu.inFlight = none then s.cu.elapsedQ else s.cu.elapsedQ + 4
                       settleMs := if s.cu.path = .settling then s.cu.settleMs + 1 else s.cu.settleMs } ∧
    t.ci.wired = s.ci.wired ∧ t.ci = { s.ci with net := t.ci.net, standstillT := t.ci.standstillT } ∧
    t.ci.standstillT = (if run then down s.ci.standstillT else s.ci.standstillT) ∧
    (∀ n : Fin 16, let x := s.ci.net[n]
      t.ci.net[n] = if run then { x with freshT := down x.freshT, lostT := down x.lostT, initT := down x.initT }
        else x) ∧
    (∀ g : Fin 8, let x := s.ge[g]
      t.ge[g] = if x.pointer = .unpowered ∨ x.pointer = .hold then x else { x with updateMs := x.updateMs + 1 }) ∧
    (∀ w : Fin 64, let x := s.wm.inst[w]
      t.wm.inst[w] = if run then { x with delayT := down x.delayT, alertT := down x.alertT } else x) ∧
    t.wm = { s.wm with inst := t.wm.inst } ∧
    t.ao = { s.ao with genQ := if s.ao.genRunning then s.ao.genQ + 4 else s.ao.genQ, bulb := down s.ao.bulb } ∧
    (∀ i : Fin 8, let x := s.dm.leaves[i]
      t.dm.leaves[i] = if live then { x with travelT := down x.travelT, lockT := down x.lockT
                                             closingT := x.closingT.map (· + 1) } else x) ∧
    t.dm = { s.dm with leaves := t.dm.leaves } ∧
    (∀ src : FaultSource, let x := s.fm.tracker src
      t.fm.tracker src = if live then { x with timer := down x.timer } else x) ∧
    t.fm = { s.fm with trackers := t.fm.trackers } ∧
    let programming := s.jc.finishing ≠ none ∨ (s.jc.inFlight ≠ none ∧ s.jc.inFlight ≠ some .erase)
    let rebuilding := s.sc.opState = .starting ∧ s.jc.finishing = none
    t.jc = { s.jc with opMs := if programming then s.jc.opMs + 1 else s.jc.opMs
                       reclaim := match s.jc.reclaim with
                         | .erasing tail ms => .erasing tail (if s.jc.inFlight = some .erase then min 120 (ms + 1) else ms)
                         | .copying tail slot => .copying tail slot
                         | .idle => .idle
                       rebuildMs := if rebuilding then s.jc.rebuildMs - 1 else s.jc.rebuildMs } ∧
    t.pending = s.pending ∧ t.freeCount = s.freeCount ∧ t.attn = s.attn ∧ t.chimeTone = s.chimeTone ∧
    ∀ l : Fin 24, t.lampLit l = s.lampLit l
end

