-- ==== Sys2Proof/Laws/State.lean ====
section
/-! SUPPORT. The fields of the state after an update of one block, one lemma per field per update, and the items of a table
after an update of a table. -/

namespace Sys2Proof.Machine

set_option Elab.async false

/-! ## Tables -/

section
variable {α β : Type} {n : Nat}

@[simp] theorem tab_getElem (f : Fin n → α) (i : Nat) (h : i < n) : (tab f)[i] = f ⟨i, h⟩ := by
  simp [tab]

theorem tab_get (f : Fin n → α) (i : Fin n) : (tab f)[i] = f i := tab_getElem f i.val i.isLt

@[simp] theorem vmap_getElem (f : α → β) (v : Vector α n) (i : Nat) (h : i < n) : (vmap f v)[i] = f v[i] := by
  simp [vmap]

theorem vmap_get (f : α → β) (v : Vector α n) (i : Fin n) : (vmap f v)[i] = f v[i] := vmap_getElem f v i.val i.isLt

@[simp] theorem vset_getElem (v : Vector α n) (i : Fin n) (a : α) (j : Nat) (h : j < n) :
    (vset v i a)[j] = if i.val = j then a else v[j] := by
  simp [vset, Vector.getElem_set]

theorem vset_self (v : Vector α n) (i : Fin n) (a : α) : (vset v i a)[i] = a := by simp

theorem vset_get (v : Vector α n) (i j : Fin n) (a : α) : (vset v i a)[j] = if i = j then a else v[j] := by
  simp [Fin.ext_iff]

theorem vset_ne (v : Vector α n) {i j : Fin n} (a : α) (h : i ≠ j) : (vset v i a)[j] = v[j] := by
  rw [vset_get, if_neg h]

@[simp] theorem vmod_getElem (v : Vector α n) (i : Fin n) (f : α → α) (j : Nat) (h : j < n) :
    (vmod v i f)[j] = if i.val = j then f v[i] else v[j] := vset_getElem v i _ j h

theorem vmod_self (v : Vector α n) (i : Fin n) (f : α → α) : (vmod v i f)[i] = f v[i] := by simp

theorem vmod_get (v : Vector α n) (i j : Fin n) (f : α → α) :
    (vmod v i f)[j] = if i = j then f v[i] else v[j] := vset_get v i j _

theorem vmod_ne (v : Vector α n) {i j : Fin n} (f : α → α) (h : i ≠ j) : (vmod v i f)[j] = v[j] := vset_ne v _ h

/-- Tables are equal where every item is. -/
theorem table_ext {v w : Vector α n} (h : ∀ i : Fin n, v[i] = w[i]) : v = w :=
  Vector.ext fun i hi => h ⟨i, hi⟩

end

/-! ## One block changed -/

section
variable (f : Link → Link) (s : State)
@[simp] theorem State.modLi_pending : (s.modLi f).pending = s.pending := rfl
@[simp] theorem State.modLi_li : (s.modLi f).li = f s.li := rfl
@[simp] theorem State.modLi_sc : (s.modLi f).sc = s.sc := rfl
@[simp] theorem State.modLi_cu : (s.modLi f).cu = s.cu := rfl
@[simp] theorem State.modLi_ci : (s.modLi f).ci = s.ci := rfl
@[simp] theorem State.modLi_ge : (s.modLi f).ge = s.ge := rfl
@[simp] theorem State.modLi_wm : (s.modLi f).wm = s.wm := rfl
@[simp] theorem State.modLi_ao : (s.modLi f).ao = s.ao := rfl
@[simp] theorem State.modLi_dm : (s.modLi f).dm = s.dm := rfl
@[simp] theorem State.modLi_fm : (s.modLi f).fm = s.fm := rfl
@[simp] theorem State.modLi_jc : (s.modLi f).jc = s.jc := rfl
@[simp] theorem State.modLi_freeCount : (s.modLi f).freeCount = s.freeCount := rfl
end

section
variable (f : Controller → Controller) (s : State)
@[simp] theorem State.modSc_pending : (s.modSc f).pending = s.pending := rfl
@[simp] theorem State.modSc_li : (s.modSc f).li = s.li := rfl
@[simp] theorem State.modSc_sc : (s.modSc f).sc = f s.sc := rfl
@[simp] theorem State.modSc_cu : (s.modSc f).cu = s.cu := rfl
@[simp] theorem State.modSc_ci : (s.modSc f).ci = s.ci := rfl
@[simp] theorem State.modSc_ge : (s.modSc f).ge = s.ge := rfl
@[simp] theorem State.modSc_wm : (s.modSc f).wm = s.wm := rfl
@[simp] theorem State.modSc_ao : (s.modSc f).ao = s.ao := rfl
@[simp] theorem State.modSc_dm : (s.modSc f).dm = s.dm := rfl
@[simp] theorem State.modSc_fm : (s.modSc f).fm = s.fm := rfl
@[simp] theorem State.modSc_jc : (s.modSc f).jc = s.jc := rfl
@[simp] theorem State.modSc_freeCount : (s.modSc f).freeCount = s.freeCount := rfl
end

section
variable (f : ConvUnit → ConvUnit) (s : State)
@[simp] theorem State.modCu_pending : (s.modCu f).pending = s.pending := rfl
@[simp] theorem State.modCu_li : (s.modCu f).li = s.li := rfl
@[simp] theorem State.modCu_sc : (s.modCu f).sc = s.sc := rfl
@[simp] theorem State.modCu_cu : (s.modCu f).cu = f s.cu := rfl
@[simp] theorem State.modCu_ci : (s.modCu f).ci = s.ci := rfl
@[simp] theorem State.modCu_ge : (s.modCu f).ge = s.ge := rfl
@[simp] theorem State.modCu_wm : (s.modCu f).wm = s.wm := rfl
@[simp] theorem State.modCu_ao : (s.modCu f).ao = s.ao := rfl
@[simp] theorem State.modCu_dm : (s.modCu f).dm = s.dm := rfl
@[simp] theorem State.modCu_fm : (s.modCu f).fm = s.fm := rfl
@[simp] theorem State.modCu_jc : (s.modCu f).jc = s.jc := rfl
@[simp] theorem State.modCu_freeCount : (s.modCu f).freeCount = s.freeCount := rfl
end

section
variable (f : Interp → Interp) (s : State)
@[simp] theorem State.modCi_pending : (s.modCi f).pending = s.pending := rfl
@[simp] theorem State.modCi_li : (s.modCi f).li = s.li := rfl
@[simp] theorem State.modCi_sc : (s.modCi f).sc = s.sc := rfl
@[simp] theorem State.modCi_cu : (s.modCi f).cu = s.cu := rfl
@[simp] theorem State.modCi_ci : (s.modCi f).ci = f s.ci := rfl
@[simp] theorem State.modCi_ge : (s.modCi f).ge = s.ge := rfl
@[simp] theorem State.modCi_wm : (s.modCi f).wm = s.wm := rfl
@[simp] theorem State.modCi_ao : (s.modCi f).ao = s.ao := rfl
@[simp] theorem State.modCi_dm : (s.modCi f).dm = s.dm := rfl
@[simp] theorem State.modCi_fm : (s.modCi f).fm = s.fm := rfl
@[simp] theorem State.modCi_jc : (s.modCi f).jc = s.jc := rfl
@[simp] theorem State.modCi_freeCount : (s.modCi f).freeCount = s.freeCount := rfl
end

section
variable (f : Vector Gauge 8 → Vector Gauge 8) (s : State)
@[simp] theorem State.modGe_pending : (s.modGe f).pending = s.pending := rfl
@[simp] theorem State.modGe_li : (s.modGe f).li = s.li := rfl
@[simp] theorem State.modGe_sc : (s.modGe f).sc = s.sc := rfl
@[simp] theorem State.modGe_cu : (s.modGe f).cu = s.cu := rfl
@[simp] theorem State.modGe_ci : (s.modGe f).ci = s.ci := rfl
@[simp] theorem State.modGe_ge : (s.modGe f).ge = f s.ge := rfl
@[simp] theorem State.modGe_wm : (s.modGe f).wm = s.wm := rfl
@[simp] theorem State.modGe_ao : (s.modGe f).ao = s.ao := rfl
@[simp] theorem State.modGe_dm : (s.modGe f).dm = s.dm := rfl
@[simp] theorem State.modGe_fm : (s.modGe f).fm = s.fm := rfl
@[simp] theorem State.modGe_jc : (s.modGe f).jc = s.jc := rfl
@[simp] theorem State.modGe_freeCount : (s.modGe f).freeCount = s.freeCount := rfl
end

section
variable (f : WarnMgr → WarnMgr) (s : State)
@[simp] theorem State.modWm_pending : (s.modWm f).pending = s.pending := rfl
@[simp] theorem State.modWm_li : (s.modWm f).li = s.li := rfl
@[simp] theorem State.modWm_sc : (s.modWm f).sc = s.sc := rfl
@[simp] theorem State.modWm_cu : (s.modWm f).cu = s.cu := rfl
@[simp] theorem State.modWm_ci : (s.modWm f).ci = s.ci := rfl
@[simp] theorem State.modWm_ge : (s.modWm f).ge = s.ge := rfl
@[simp] theorem State.modWm_wm : (s.modWm f).wm = f s.wm := rfl
@[simp] theorem State.modWm_ao : (s.modWm f).ao = s.ao := rfl
@[simp] theorem State.modWm_dm : (s.modWm f).dm = s.dm := rfl
@[simp] theorem State.modWm_fm : (s.modWm f).fm = s.fm := rfl
@[simp] theorem State.modWm_jc : (s.modWm f).jc = s.jc := rfl
@[simp] theorem State.modWm_freeCount : (s.modWm f).freeCount = s.freeCount := rfl
end

section
variable (f : Alert → Alert) (s : State)
@[simp] theorem State.modAo_pending : (s.modAo f).pending = s.pending := rfl
@[simp] theorem State.modAo_li : (s.modAo f).li = s.li := rfl
@[simp] theorem State.modAo_sc : (s.modAo f).sc = s.sc := rfl
@[simp] theorem State.modAo_cu : (s.modAo f).cu = s.cu := rfl
@[simp] theorem State.modAo_ci : (s.modAo f).ci = s.ci := rfl
@[simp] theorem State.modAo_ge : (s.modAo f).ge = s.ge := rfl
@[simp] theorem State.modAo_wm : (s.modAo f).wm = s.wm := rfl
@[simp] theorem State.modAo_ao : (s.modAo f).ao = f s.ao := rfl
@[simp] theorem State.modAo_dm : (s.modAo f).dm = s.dm := rfl
@[simp] theorem State.modAo_fm : (s.modAo f).fm = s.fm := rfl
@[simp] theorem State.modAo_jc : (s.modAo f).jc = s.jc := rfl
@[simp] theorem State.modAo_freeCount : (s.modAo f).freeCount = s.freeCount := rfl
end

section
variable (f : DoorMon → DoorMon) (s : State)
@[simp] theorem State.modDm_pending : (s.modDm f).pending = s.pending := rfl
@[simp] theorem State.modDm_li : (s.modDm f).li = s.li := rfl
@[simp] theorem State.modDm_sc : (s.modDm f).sc = s.sc := rfl
@[simp] theorem State.modDm_cu : (s.modDm f).cu = s.cu := rfl
@[simp] theorem State.modDm_ci : (s.modDm f).ci = s.ci := rfl
@[simp] theorem State.modDm_ge : (s.modDm f).ge = s.ge := rfl
@[simp] theorem State.modDm_wm : (s.modDm f).wm = s.wm := rfl
@[simp] theorem State.modDm_ao : (s.modDm f).ao = s.ao := rfl
@[simp] theorem State.modDm_dm : (s.modDm f).dm = f s.dm := rfl
@[simp] theorem State.modDm_fm : (s.modDm f).fm = s.fm := rfl
@[simp] theorem State.modDm_jc : (s.modDm f).jc = s.jc := rfl
@[simp] theorem State.modDm_freeCount : (s.modDm f).freeCount = s.freeCount := rfl
end

section
variable (f : FaultMem → FaultMem) (s : State)
@[simp] theorem State.modFm_pending : (s.modFm f).pending = s.pending := rfl
@[simp] theorem State.modFm_li : (s.modFm f).li = s.li := rfl
@[simp] theorem State.modFm_sc : (s.modFm f).sc = s.sc := rfl
@[simp] theorem State.modFm_cu : (s.modFm f).cu = s.cu := rfl
@[simp] theorem State.modFm_ci : (s.modFm f).ci = s.ci := rfl
@[simp] theorem State.modFm_ge : (s.modFm f).ge = s.ge := rfl
@[simp] theorem State.modFm_wm : (s.modFm f).wm = s.wm := rfl
@[simp] theorem State.modFm_ao : (s.modFm f).ao = s.ao := rfl
@[simp] theorem State.modFm_dm : (s.modFm f).dm = s.dm := rfl
@[simp] theorem State.modFm_fm : (s.modFm f).fm = f s.fm := rfl
@[simp] theorem State.modFm_jc : (s.modFm f).jc = s.jc := rfl
@[simp] theorem State.modFm_freeCount : (s.modFm f).freeCount = s.freeCount := rfl
end

section
variable (f : Journal → Journal) (s : State)
@[simp] theorem State.modJc_pending : (s.modJc f).pending = s.pending := rfl
@[simp] theorem State.modJc_li : (s.modJc f).li = s.li := rfl
@[simp] theorem State.modJc_sc : (s.modJc f).sc = s.sc := rfl
@[simp] theorem State.modJc_cu : (s.modJc f).cu = s.cu := rfl
@[simp] theorem State.modJc_ci : (s.modJc f).ci = s.ci := rfl
@[simp] theorem State.modJc_ge : (s.modJc f).ge = s.ge := rfl
@[simp] theorem State.modJc_wm : (s.modJc f).wm = s.wm := rfl
@[simp] theorem State.modJc_ao : (s.modJc f).ao = s.ao := rfl
@[simp] theorem State.modJc_dm : (s.modJc f).dm = s.dm := rfl
@[simp] theorem State.modJc_fm : (s.modJc f).fm = s.fm := rfl
@[simp] theorem State.modJc_jc : (s.modJc f).jc = f s.jc := rfl
@[simp] theorem State.modJc_freeCount : (s.modJc f).freeCount = s.freeCount := rfl
end

section
variable (ch : Fin 24) (f : Wired → Wired) (s : State)
@[simp] theorem State.modWired_pending : (s.modWired ch f).pending = s.pending := rfl
@[simp] theorem State.modWired_li : (s.modWired ch f).li = s.li := rfl
@[simp] theorem State.modWired_sc : (s.modWired ch f).sc = s.sc := rfl
@[simp] theorem State.modWired_cu : (s.modWired ch f).cu = s.cu := rfl
@[simp] theorem State.modWired_ci : (s.modWired ch f).ci = { s.ci with wired := vmod s.ci.wired ch f } := rfl
@[simp] theorem State.modWired_ge : (s.modWired ch f).ge = s.ge := rfl
@[simp] theorem State.modWired_wm : (s.modWired ch f).wm = s.wm := rfl
@[simp] theorem State.modWired_ao : (s.modWired ch f).ao = s.ao := rfl
@[simp] theorem State.modWired_dm : (s.modWired ch f).dm = s.dm := rfl
@[simp] theorem State.modWired_fm : (s.modWired ch f).fm = s.fm := rfl
@[simp] theorem State.modWired_jc : (s.modWired ch f).jc = s.jc := rfl
@[simp] theorem State.modWired_freeCount : (s.modWired ch f).freeCount = s.freeCount := rfl
end

section
variable (n : Fin 16) (f : Net → Net) (s : State)
@[simp] theorem State.modNet_pending : (s.modNet n f).pending = s.pending := rfl
@[simp] theorem State.modNet_li : (s.modNet n f).li = s.li := rfl
@[simp] theorem State.modNet_sc : (s.modNet n f).sc = s.sc := rfl
@[simp] theorem State.modNet_cu : (s.modNet n f).cu = s.cu := rfl
@[simp] theorem State.modNet_ci : (s.modNet n f).ci = { s.ci with net := vmod s.ci.net n f } := rfl
@[simp] theorem State.modNet_ge : (s.modNet n f).ge = s.ge := rfl
@[simp] theorem State.modNet_wm : (s.modNet n f).wm = s.wm := rfl
@[simp] theorem State.modNet_ao : (s.modNet n f).ao = s.ao := rfl
@[simp] theorem State.modNet_dm : (s.modNet n f).dm = s.dm := rfl
@[simp] theorem State.modNet_fm : (s.modNet n f).fm = s.fm := rfl
@[simp] theorem State.modNet_jc : (s.modNet n f).jc = s.jc := rfl
@[simp] theorem State.modNet_freeCount : (s.modNet n f).freeCount = s.freeCount := rfl
end

section
variable (g : Fin 8) (f : Gauge → Gauge) (s : State)
@[simp] theorem State.modGauge_pending : (s.modGauge g f).pending = s.pending := rfl
@[simp] theorem State.modGauge_li : (s.modGauge g f).li = s.li := rfl
@[simp] theorem State.modGauge_sc : (s.modGauge g f).sc = s.sc := rfl
@[simp] theorem State.modGauge_cu : (s.modGauge g f).cu = s.cu := rfl
@[simp] theorem State.modGauge_ci : (s.modGauge g f).ci = s.ci := rfl
@[simp] theorem State.modGauge_ge : (s.modGauge g f).ge = vmod s.ge g f := rfl
@[simp] theorem State.modGauge_wm : (s.modGauge g f).wm = s.wm := rfl
@[simp] theorem State.modGauge_ao : (s.modGauge g f).ao = s.ao := rfl
@[simp] theorem State.modGauge_dm : (s.modGauge g f).dm = s.dm := rfl
@[simp] theorem State.modGauge_fm : (s.modGauge g f).fm = s.fm := rfl
@[simp] theorem State.modGauge_jc : (s.modGauge g f).jc = s.jc := rfl
@[simp] theorem State.modGauge_freeCount : (s.modGauge g f).freeCount = s.freeCount := rfl
end

section
variable (w : Fin 64) (f : WarnInst → WarnInst) (s : State)
@[simp] theorem State.modInst_pending : (s.modInst w f).pending = s.pending := rfl
@[simp] theorem State.modInst_li : (s.modInst w f).li = s.li := rfl
@[simp] theorem State.modInst_sc : (s.modInst w f).sc = s.sc := rfl
@[simp] theorem State.modInst_cu : (s.modInst w f).cu = s.cu := rfl
@[simp] theorem State.modInst_ci : (s.modInst w f).ci = s.ci := rfl
@[simp] theorem State.modInst_ge : (s.modInst w f).ge = s.ge := rfl
@[simp] theorem State.modInst_wm : (s.modInst w f).wm = { s.wm with inst := vmod s.wm.inst w f } := rfl
@[simp] theorem State.modInst_ao : (s.modInst w f).ao = s.ao := rfl
@[simp] theorem State.modInst_dm : (s.modInst w f).dm = s.dm := rfl
@[simp] theorem State.modInst_fm : (s.modInst w f).fm = s.fm := rfl
@[simp] theorem State.modInst_jc : (s.modInst w f).jc = s.jc := rfl
@[simp] theorem State.modInst_freeCount : (s.modInst w f).freeCount = s.freeCount := rfl
end

section
variable (l : Fin 8) (f : Leaf → Leaf) (s : State)
@[simp] theorem State.modLeaf_pending : (s.modLeaf l f).pending = s.pending := rfl
@[simp] theorem State.modLeaf_li : (s.modLeaf l f).li = s.li := rfl
@[simp] theorem State.modLeaf_sc : (s.modLeaf l f).sc = s.sc := rfl
@[simp] theorem State.modLeaf_cu : (s.modLeaf l f).cu = s.cu := rfl
@[simp] theorem State.modLeaf_ci : (s.modLeaf l f).ci = s.ci := rfl
@[simp] theorem State.modLeaf_ge : (s.modLeaf l f).ge = s.ge := rfl
@[simp] theorem State.modLeaf_wm : (s.modLeaf l f).wm = s.wm := rfl
@[simp] theorem State.modLeaf_ao : (s.modLeaf l f).ao = s.ao := rfl
@[simp] theorem State.modLeaf_dm : (s.modLeaf l f).dm = { s.dm with leaves := vmod s.dm.leaves l f } := rfl
@[simp] theorem State.modLeaf_fm : (s.modLeaf l f).fm = s.fm := rfl
@[simp] theorem State.modLeaf_jc : (s.modLeaf l f).jc = s.jc := rfl
@[simp] theorem State.modLeaf_freeCount : (s.modLeaf l f).freeCount = s.freeCount := rfl
end

/-! ## A report placed -/

section
variable (e : Event) (i : Nat) (v : Option Word16) (s : State)
@[simp] theorem report_pending : (report e i v s).pending = s.pending := rfl
@[simp] theorem report_li : (report e i v s).li = s.li.place e i v := rfl
@[simp] theorem report_sc : (report e i v s).sc = s.sc := rfl
@[simp] theorem report_cu : (report e i v s).cu = s.cu := rfl
@[simp] theorem report_ci : (report e i v s).ci = s.ci := rfl
@[simp] theorem report_ge : (report e i v s).ge = s.ge := rfl
@[simp] theorem report_wm : (report e i v s).wm = s.wm := rfl
@[simp] theorem report_ao : (report e i v s).ao = s.ao := rfl
@[simp] theorem report_dm : (report e i v s).dm = s.dm := rfl
@[simp] theorem report_fm : (report e i v s).fm = s.fm := rfl
@[simp] theorem report_jc : (report e i v s).jc = s.jc := rfl
@[simp] theorem report_freeCount : (report e i v s).freeCount = s.freeCount := rfl
end

section
variable (e : Event) (i : Nat) (v : Option Word16) (l : Link)
@[simp] theorem Link.place_receiver : (l.place e i v).receiver = l.receiver := rfl
@[simp] theorem Link.place_buffer : (l.place e i v).buffer = l.buffer := rfl
@[simp] theorem Link.place_gapMs : (l.place e i v).gapMs = l.gapMs := rfl
@[simp] theorem Link.place_transmitter : (l.place e i v).transmitter = l.transmitter := rfl
@[simp] theorem Link.place_restartPending : (l.place e i v).restartPending = l.restartPending := rfl
@[simp] theorem Link.place_tripClock : (l.place e i v).tripClock = l.tripClock := rfl
@[simp] theorem Link.place_lineRate : (l.place e i v).lineRate = l.lineRate := rfl
@[simp] theorem Link.place_vehicleId : (l.place e i v).vehicleId = l.vehicleId := rfl
@[simp] theorem Link.place_nextSeq : (l.place e i v).nextSeq = l.nextSeq + 1 := rfl
end

end Sys2Proof.Machine
end

