-- ==== Sys2Proof/Laws/Order.lean ====
section
/-! SUPPORT. What the free order can do: it runs the active units once each, in some order, and nothing else; what holds
along every order holds after it. -/

namespace Sys2Proof.Machine

set_option Elab.async false

/-- Some item, then the others, is the list in another order. -/
theorem perm_getElem_eraseIdx {α : Type} (l : List α) (i : Nat) (h : i < l.length) :
    (l[i] :: l.eraseIdx i).Perm l := by
  induction l generalizing i with
  | nil => simp at h
  | cons x xs ih =>
    cases i with
    | zero => simp
    | succ i =>
      have h' : i < xs.length := by simpa using h
      simpa using (List.Perm.swap x xs[i] (xs.eraseIdx i)).trans ((ih i h').cons x)

/-- A coded permutation is a permutation, whatever its code and fuel. -/
theorem permuteBy_perm {α : Type} (fuel code : Nat) (l : List α) : (permuteBy fuel code l).Perm l := by
  induction fuel generalizing code l with
  | zero => match l with
    | [] => simp [permuteBy]
    | [x] => simp [permuteBy]
    | x :: y :: zs => simp [permuteBy]
  | succ fuel ih =>
    match l with
    | [] => simp [permuteBy]
    | [x] => simp [permuteBy]
    | x :: y :: zs =>
      have h : code % (x :: y :: zs).length < (x :: y :: zs).length := Nat.mod_lt _ (by simp)
      rw [permuteBy, List.getElem?_eq_getElem h]
      · exact ((ih _ _).cons _).trans (perm_getElem_eraseIdx _ _ h)
      · simp
      · simp

/-- The active units of a free order. -/
abbrev activeUnits (units : List (Bool × (State → State))) : List (State → State) := (units.filter (·.1)).map (·.2)

/-- All a free order does: a free value is counted as read, and the active units run once each in some order. -/
theorem inFreeOrder_eq (units : List (Bool × (State → State))) (s : State) :
    ∃ order : List (State → State), order.Perm (activeUnits units) ∧
      inFreeOrder units s = order.foldl (fun t u => u t) { s with freeCount := s.freeCount + 1 } :=
  ⟨_, permuteBy_perm _ _ _, rfl⟩

/-- With no active unit only the count of free values moves. -/
theorem inFreeOrder_none {units : List (Bool × (State → State))} (h : activeUnits units = []) (s : State) :
    inFreeOrder units s = { s with freeCount := s.freeCount + 1 } := by
  obtain ⟨o, ho, e⟩ := inFreeOrder_eq units s
  rw [h, List.perm_nil] at ho
  simp [e, ho]

/-- One active unit runs. -/
theorem inFreeOrder_one {units : List (Bool × (State → State))} {u : State → State} (h : activeUnits units = [u])
    (s : State) : inFreeOrder units s = u { s with freeCount := s.freeCount + 1 } := by
  obtain ⟨o, ho, e⟩ := inFreeOrder_eq units s
  rw [h, List.perm_singleton] at ho
  simp [e, ho]

/-- What every active unit keeps, a free order keeps. -/
theorem inFreeOrder_induct (P : State → Prop) {units : List (Bool × (State → State))} {s : State}
    (start : P { s with freeCount := s.freeCount + 1 })
    (keep : ∀ u, (true, u) ∈ units → ∀ t, P t → P (u t)) : P (inFreeOrder units s) := by
  obtain ⟨o, ho, e⟩ := inFreeOrder_eq units s
  rw [e]
  have hmem : ∀ u ∈ o, (true, u) ∈ units := by
    intro u hu
    have := ho.mem_iff.mp hu
    simp only [activeUnits, List.mem_map, List.mem_filter] at this
    obtain ⟨⟨b, v⟩, ⟨hv, hb⟩, rfl⟩ := this
    simp only at hb
    subst hb
    exact hv
  clear ho e
  generalize ({ s with freeCount := s.freeCount + 1 } : State) = t at start
  induction o generalizing t with
  | nil => exact start
  | cons u us ih =>
    exact ih (fun v hv => hmem v (List.mem_cons_of_mem _ hv)) _ (keep u (hmem u List.mem_cons_self) t start)

/-- What every step of a fold keeps, the fold keeps. -/
theorem foldl_induct {α : Type} (P : State → Prop) (f : State → α → State) (l : List α) (s : State) (start : P s)
    (keep : ∀ x ∈ l, ∀ t, P t → P (f t x)) : P (l.foldl f s) := by
  induction l generalizing s with
  | nil => exact start
  | cons x xs ih =>
    exact ih _ (keep x List.mem_cons_self s start) fun y hy => keep y (List.mem_cons_of_mem _ hy)

/-- What handling one item keeps, handling every item keeps. -/
theorem forEach_induct {n : Nat} (P : State → Prop) (f : Fin n → State → State) (s : State) (start : P s)
    (keep : ∀ i t, P t → P (f i t)) : P (forEach f s) :=
  foldl_induct P _ _ s start fun i _ t h => keep i t h

end Sys2Proof.Machine
end

