-- ==== Sys2Proof/Laws/Frame.lean ====
section
/-! SUPPORT. Frames: which parts of the state an operation can change. `Only bs s t` says that `t` differs from `s` in no
part but those of `bs`; one lemma per operation gives its parts, and the frames of the commands follow. -/

namespace Sys2Proof.Machine

set_option Elab.async false

/-- The parts of the state that frames tell apart; the service flag apart from the rest of the State Controller. The link
is changed by placing reports alone, but by the commands of the link itself. -/
inductive Part where
  | pending | reports | sc | service | cu | ci | ge | wm | ao | dm | fm | jc | free
  deriving DecidableEq, Repr

/-- The second link is the first with some reports placed, in order. -/
def Places (l m : Link) : Prop :=
  ∃ ps : List (Event × Nat × Option Word16), m = ps.foldl (fun l p => l.place p.1 p.2.1 p.2.2) l

theorem Places.refl (l : Link) : Places l l := ⟨[], rfl⟩

theorem Places.one (l : Link) (e : Event) (i : Nat) (v : Option Word16) : Places l (l.place e i v) :=
  ⟨[(e, i, v)], rfl⟩

theorem Places.trans {l m n : Link} : Places l m → Places m n → Places l n := by
  rintro ⟨ps, rfl⟩ ⟨qs, rfl⟩
  exact ⟨ps ++ qs, by simp⟩

/-- What placing one report keeps, placing any number keeps. -/
theorem Places.induct (P : Link → Prop) {l m : Link} (h : Places l m) (start : P l)
    (keep : ∀ x e i v, P x → P (x.place e i v)) : P m := by
  obtain ⟨ps, rfl⟩ := h
  induction ps generalizing l with
  | nil => exact start
  | cons p ps ih => exact ih (keep _ _ _ _ start)

/-- The State Controller without the service flag. -/
def Controller.bare (c : Controller) : Controller := { c with service := false }

/-- Two states agree in a part. -/
def Part.same (s t : State) : Part → Prop
  | .pending => t.pending = s.pending
  | .reports => t.li = s.li
  | .sc => t.sc.bare = s.sc.bare
  | .service => t.sc.service = s.sc.service
  | .cu => t.cu = s.cu
  | .ci => t.ci = s.ci
  | .ge => t.ge = s.ge
  | .wm => t.wm = s.wm
  | .ao => t.ao = s.ao
  | .dm => t.dm = s.dm
  | .fm => t.fm = s.fm
  | .jc => t.jc = s.jc
  | .free => t.freeCount = s.freeCount

/-- The second state differs from the first in no part but those listed, and its link by placed reports alone. -/
structure Only (bs : List Part) (s t : State) : Prop where
  parts  : ∀ b, b ∉ bs → b.same s t
  placed : Places s.li t.li

namespace Only

variable {bs cs : List Part} {s t u : State}

theorem refl (bs : List Part) (s : State) : Only bs s s :=
  ⟨fun b _ => by cases b <;> simp [Part.same], .refl _⟩

theorem mono (h : Only bs s t) (sub : bs ⊆ cs := by decide) : Only cs s t :=
  ⟨fun b hb => h.parts b fun x => hb (sub x), h.placed⟩

theorem trans (h : Only bs s t) (k : Only bs t u) : Only bs s u := by
  refine ⟨fun b hb => ?_, h.placed.trans k.placed⟩
  have h1 := h.parts b hb
  have h2 := k.parts b hb
  cases b <;> simp_all [Part.same]

/-- One more operation after some. -/
theorem andThen (h : Only bs s t) (k : Only cs t u) (sub : cs ⊆ bs := by decide) : Only bs s u := h.trans (k.mono sub)

theorem ite {p : Prop} [Decidable p] (h : Only bs s t) (k : Only bs s u) : Only bs s (if p then t else u) := by
  split
  · exact h
  · exact k

theorem foldl {α : Type} {f : State → α → State} {l : List α} (h : ∀ x t, Only bs t (f t x)) :
    Only bs s (l.foldl f s) :=
  foldl_induct (Only bs s) f l s (refl bs s) fun x _ t ht => ht.trans (h x t)

theorem forEach {n : Nat} {f : Fin n → State → State} (h : ∀ i t, Only bs t (f i t)) :
    Only bs s (Machine.forEach f s) := foldl fun i t => h i t

theorem free (hf : Part.free ∈ bs) : Only bs s { s with freeCount := s.freeCount + 1 } :=
  ⟨fun b hb => by cases b <;> simp_all [Part.same], .refl _⟩

theorem inFreeOrder {units : List (Bool × (State → State))} (h : ∀ u, (true, u) ∈ units → ∀ t, Only bs t (u t))
    (hf : Part.free ∈ bs := by decide) : Only bs s (Machine.inFreeOrder units s) :=
  inFreeOrder_induct (Only bs s) (free hf) fun u hu t ht => ht.trans (h u hu t)

/-! What a frame gives for each part it does not list. -/

theorem pending (h : Only bs s t) (hb : Part.pending ∉ bs := by decide) : t.pending = s.pending := h.parts _ hb
theorem li (h : Only bs s t) (hb : Part.reports ∉ bs := by decide) : t.li = s.li := h.parts _ hb
theorem transmitter (h : Only bs s t) : t.li.transmitter = s.li.transmitter :=
  h.placed.induct (fun l => l.transmitter = s.li.transmitter) rfl fun _ _ _ _ h => by simpa using h
theorem receiver (h : Only bs s t) : t.li.receiver = s.li.receiver :=
  h.placed.induct (fun l => l.receiver = s.li.receiver) rfl fun _ _ _ _ h => by simpa using h
theorem tripClock (h : Only bs s t) : t.li.tripClock = s.li.tripClock :=
  h.placed.induct (fun l => l.tripClock = s.li.tripClock) rfl fun _ _ _ _ h => by simpa using h
theorem restartPending (h : Only bs s t) : t.li.restartPending = s.li.restartPending :=
  h.placed.induct (fun l => l.restartPending = s.li.restartPending) rfl fun _ _ _ _ h => by simpa using h
theorem opState (h : Only bs s t) (hb : Part.sc ∉ bs := by decide) : t.sc.opState = s.sc.opState := by
  simpa [Controller.bare] using congrArg Controller.opState (h.parts _ hb)
theorem cycle (h : Only bs s t) (hb : Part.sc ∉ bs := by decide) : t.sc.cycle = s.sc.cycle := by
  simpa [Controller.bare] using congrArg Controller.cycle (h.parts _ hb)
theorem opSeconds (h : Only bs s t) (hb : Part.sc ∉ bs := by decide) : t.sc.opSeconds = s.sc.opSeconds := by
  simpa [Controller.bare] using congrArg Controller.opSeconds (h.parts _ hb)
theorem scBare (h : Only bs s t) (hb : Part.sc ∉ bs := by decide) : t.sc.bare = s.sc.bare := h.parts _ hb
theorem service (h : Only bs s t) (hb : Part.service ∉ bs := by decide) : t.sc.service = s.sc.service := h.parts _ hb
theorem sc (h : Only bs s t) (hb : Part.sc ∉ bs := by decide) (hc : Part.service ∉ bs := by decide) : t.sc = s.sc := by
  have h1 : t.sc.bare = s.sc.bare := h.parts _ hb
  have h2 : t.sc.service = s.sc.service := h.parts _ hc
  cases ht : t.sc
  cases hs : s.sc
  simp_all [Controller.bare]
theorem cu (h : Only bs s t) (hb : Part.cu ∉ bs := by decide) : t.cu = s.cu := h.parts _ hb
theorem ci (h : Only bs s t) (hb : Part.ci ∉ bs := by decide) : t.ci = s.ci := h.parts _ hb
theorem ge (h : Only bs s t) (hb : Part.ge ∉ bs := by decide) : t.ge = s.ge := h.parts _ hb
theorem wm (h : Only bs s t) (hb : Part.wm ∉ bs := by decide) : t.wm = s.wm := h.parts _ hb
theorem ao (h : Only bs s t) (hb : Part.ao ∉ bs := by decide) : t.ao = s.ao := h.parts _ hb
theorem dm (h : Only bs s t) (hb : Part.dm ∉ bs := by decide) : t.dm = s.dm := h.parts _ hb
theorem fm (h : Only bs s t) (hb : Part.fm ∉ bs := by decide) : t.fm = s.fm := h.parts _ hb
theorem jc (h : Only bs s t) (hb : Part.jc ∉ bs := by decide) : t.jc = s.jc := h.parts _ hb
theorem freeCount (h : Only bs s t) (hb : Part.free ∉ bs := by decide) : t.freeCount = s.freeCount := h.parts _ hb

end Only

/-! ## Operations on one block -/

section
variable (s : State)

theorem modSc_only (f : Controller → Controller) : Only [.sc, .service] s (s.modSc f) :=
  ⟨fun b hb => by cases b <;> simp_all [Part.same], .refl _⟩
theorem modCu_only (f : ConvUnit → ConvUnit) : Only [.cu] s (s.modCu f) :=
  ⟨fun b hb => by cases b <;> simp_all [Part.same], .refl _⟩
theorem modCi_only (f : Interp → Interp) : Only [.ci] s (s.modCi f) :=
  ⟨fun b hb => by cases b <;> simp_all [Part.same], .refl _⟩
theorem modGe_only (f : Vector Gauge 8 → Vector Gauge 8) : Only [.ge] s (s.modGe f) :=
  ⟨fun b hb => by cases b <;> simp_all [Part.same], .refl _⟩
theorem modWm_only (f : WarnMgr → WarnMgr) : Only [.wm] s (s.modWm f) :=
  ⟨fun b hb => by cases b <;> simp_all [Part.same], .refl _⟩
theorem modAo_only (f : Alert → Alert) : Only [.ao] s (s.modAo f) :=
  ⟨fun b hb => by cases b <;> simp_all [Part.same], .refl _⟩
theorem modDm_only (f : DoorMon → DoorMon) : Only [.dm] s (s.modDm f) :=
  ⟨fun b hb => by cases b <;> simp_all [Part.same], .refl _⟩
theorem modFm_only (f : FaultMem → FaultMem) : Only [.fm] s (s.modFm f) :=
  ⟨fun b hb => by cases b <;> simp_all [Part.same], .refl _⟩
theorem modJc_only (f : Journal → Journal) : Only [.jc] s (s.modJc f) :=
  ⟨fun b hb => by cases b <;> simp_all [Part.same], .refl _⟩
theorem modWired_only (ch : Fin 24) (f : Wired → Wired) : Only [.ci] s (s.modWired ch f) := modCi_only s _
theorem modNet_only (n : Fin 16) (f : Net → Net) : Only [.ci] s (s.modNet n f) := modCi_only s _
theorem modGauge_only (g : Fin 8) (f : Gauge → Gauge) : Only [.ge] s (s.modGauge g f) := modGe_only s _
theorem modInst_only (w : Fin 64) (f : WarnInst → WarnInst) : Only [.wm] s (s.modInst w f) := modWm_only s _
theorem modLeaf_only (l : Fin 8) (f : Leaf → Leaf) : Only [.dm] s (s.modLeaf l f) := modDm_only s _

/-- A report changes the report queue and its counter alone (R9). -/
theorem report_only (e : Event) (i : Nat) (v : Option Word16) : Only [.reports] s (report e i v s) :=
  ⟨fun b hb => by cases b <;> simp_all [Part.same], .one _ _ _ _⟩

end

end Sys2Proof.Machine
end

