-- ==== Sys2Proof/Laws/Footprints.lean ====
section
/-! SUPPORT. The parts of the state that the Journal Controller, the Fault Memory, the Alert Output Unit, the Gauge Engine, the
session, the Warning Manager and the Door Monitor can change, one lemma per operation. -/

namespace Sys2Proof.Machine

set_option Elab.async false

/-- What the Fault Memory's work can change: its own state, the commit queue and the reports. -/
abbrev faultParts : List Part := [.reports, .fm, .jc]

/-- What the Gauge Engine's own work on pointers can change. -/
abbrev pointerParts : List Part := [.reports, .ge, .fm, .jc, .free]

/-- What the Warning Manager's work can change: its own state, the outputs, the gauges whose tests a STOP warning ends, and
the Fault Memory. -/
abbrev warnParts : List Part := [.reports, .ge, .wm, .ao, .fm, .jc, .free]

/-- What the Door Monitor's work can change. -/
abbrev doorParts : List Part := [.reports, .ge, .wm, .ao, .dm, .fm, .jc, .free]

section
variable (s : State)

/-! ## Journal and Fault Memory -/

theorem jcChoose_only : Only [.jc] s (jcChoose s) := modJc_only s _

theorem queueRecord_only (c : Content) : Only [.jc] s (queueRecord c s) :=
  ⟨fun b hb => by cases b <;> simp_all [Part.same, queueRecord], .refl _⟩

theorem unqueueFault_only (src : FaultSource) : Only [.jc] s (unqueueFault src s) := modJc_only s _
theorem unqueueFaults_only : Only [.jc] s (unqueueFaults s) := modJc_only s _
theorem setTracker_only (src : FaultSource) (t : Tracker) : Only [.fm] s (setTracker src t s) := modFm_only s _
theorem resetTrackers_only : Only [.fm] s (resetTrackers s) := modFm_only s _
theorem queueEntry_only (e : FaultEntry) : Only [.jc] s (queueEntry e s) := queueRecord_only s _

theorem createEntry_only (src : FaultSource) (d : Option FaultSource) : Only faultParts s (createEntry src d s) :=
  (((modFm_only s _).mono).andThen (queueEntry_only _ _)).andThen (report_only _ _ _ _)

theorem displaceEntry_only (v src : FaultSource) : Only faultParts s (displaceEntry v src s) :=
  (((modFm_only s _).mono).andThen (unqueueFault_only _ _)).andThen (report_only _ _ _ _)

theorem confirmFault_only (src : FaultSource) : Only faultParts s (confirmFault src s) := by
  unfold confirmFault
  split
  · exact (((modFm_only s _).mono).andThen (queueEntry_only _ _)).andThen (report_only _ _ _ _)
  · split
    · exact createEntry_only s _ _
    · split
      · exact (displaceEntry_only s _ _).trans (createEntry_only _ _ _)
      · exact ((modFm_only s _).mono).andThen (report_only _ _ _ _)

theorem startTracker_only (src : FaultSource) : Only faultParts s (startTracker src s) := by
  unfold startTracker
  split
  · exact (setTracker_only s _ _).mono
  · exact ((setTracker_only s _ _).mono).trans (confirmFault_only _ _)

theorem setPresence_only (src : FaultSource) (p : Bool) : Only faultParts s (setPresence src p s) := by
  unfold setPresence
  split
  · exact Only.refl _ _
  · refine Only.trans (modFm_only s fun f => { f with presence := vset f.presence (sourceIndex src) p }).mono ?_
    dsimp only
    split
    · exact Only.ite (startTracker_only _ _) (Only.refl _ _)
    · exact (setTracker_only _ _ _).mono

theorem confirmExpired_only (src : FaultSource) : Only faultParts s (confirmExpired src s) :=
  ((setTracker_only s _ _).mono).trans (confirmFault_only _ _)

theorem fireSource_only (src : FaultSource) : Only faultParts s (fireSource src s) :=
  (confirmExpired_only s src).andThen (setTracker_only _ _ _)

theorem recordProgrammed_only (r : Record) : Only faultParts s (recordProgrammed r s) := by
  unfold recordProgrammed entryProgrammed
  split
  · exact Only.ite (modFm_only s _).mono (Only.refl _ _)
  · exact ((modFm_only s _).mono).andThen (report_only _ _ _ _)
  · exact Only.refl _ _

theorem ageEntries_only : Only faultParts s (ageEntries s) :=
  ((modFm_only s _).mono).trans (Only.foldl fun _ _ => (report_only _ _ _ _).mono)

theorem faultsRunEntry_only : Only faultParts s (faultsRunEntry s) :=
  ((((modFm_only s _).mono).andThen (resetTrackers_only _)).trans (setPresence_only _ _ _)).trans
    (setPresence_only _ _ _)

theorem clearFaults_only : Only faultParts s (clearFaults s) := by
  unfold clearFaults
  refine Only.trans ?_ (Only.foldl fun src t => Only.ite (startTracker_only t src) (Only.refl _ _))
  exact ((((modFm_only s _).mono).andThen (unqueueFaults_only _)).andThen (queueRecord_only _ _)).andThen
    ((modFm_only _ _).andThen (resetTrackers_only _))

theorem takeEntries_only (es : List FaultEntry) : Only [.fm] s (takeEntries es s) := by
  unfold takeEntries
  exact modFm_only s _

/-! ## Alert Output Unit -/

theorem refreshLamps_only : Only [.ao] s (refreshLamps s) := modAo_only s _

theorem stopGenerator_only : Only [.ao] s (stopGenerator s) := by
  unfold stopGenerator
  exact Only.ite (modAo_only _ _) (Only.refl _ _)

theorem chimeSwitch_only (q : Nat) : Only [.ao] s (chimeSwitch q s) :=
  (modAo_only s _).trans (stopGenerator_only _)

theorem deriveChime_only : Only [.ao] s (deriveChime s) := by
  unfold deriveChime
  exact (modAo_only s _).trans (Only.ite (chimeSwitch_only _ _) (Only.refl _ _))

theorem takeList_only : Only [.ao] s (takeList s) :=
  ((modAo_only s _).trans (refreshLamps_only _)).trans (deriveChime_only _)

theorem takeFloor_only : Only [.ao] s (takeFloor s) := (modAo_only s _).trans (deriveChime_only _)

theorem finishBurst_only (q : Nat) : Only [.reports, .ao] s (finishBurst q s) := by
  have last (t : State) : Only [.reports, .ao] t
      (let u := t.modAo fun a => { a with claimant := t.claimantNow }
       if u.ao.claimant ≠ u.ao.source then chimeSwitch q u else u) :=
    (modAo_only t _).mono.trans (Only.ite (chimeSwitch_only _ _).mono (Only.refl _ _))
  refine Only.trans ?_ (last _)
  split
  · exact (modAo_only _ _).mono
  · exact Only.ite ((modAo_only _ _).mono.andThen (report_only _ _ _ _)) (Only.refl _ _)
  · exact Only.refl _ _

theorem countPeriod_only (c : Bool) : Only [.ao] s (countPeriod c s) := by
  unfold countPeriod
  exact Only.ite (modAo_only _ _) (Only.refl _ _)

theorem burstStep_only (p : Pattern) (c : Bool) (phase q : Nat) : Only [.reports, .ao] s (burstStep p c phase q s) := by
  unfold burstStep
  exact Only.ite (finishBurst_only _ _) (Only.ite (chimeSwitch_only _ _).mono (Only.refl _ _))

theorem generatorStep_only (q : Nat) : Only [.reports, .ao] s (generatorStep q s) := by
  unfold generatorStep
  refine Only.trans (modAo_only s fun a => { a with phase := (s.ao.phase + 1) % 16, genQ := q }).mono ?_
  dsimp only
  split
  · exact Only.refl _ _
  · exact Only.ite (chimeSwitch_only _ _).mono (Only.refl _ _)
  · exact (countPeriod_only _ _).mono.trans (burstStep_only _ _ _ _ _)

theorem alertsRunEntry_only : Only [.ao] s (alertsRunEntry s) := (modAo_only s _).trans (refreshLamps_only _)

theorem alertsLeaveRun_only : Only [.ao] s (alertsLeaveRun s) :=
  (((modAo_only s _).trans (refreshLamps_only _)).trans (deriveChime_only _)).trans (stopGenerator_only _)

theorem alertsEndTests_only : Only [.ao] s (alertsEndTests s) :=
  ((modAo_only s _).trans (refreshLamps_only _)).trans (deriveChime_only _)

/-! ## Gauge Engine -/

theorem setPointer_only (g : Fin 8) (st : PointerState) : Only [.reports, .ge] s (setPointer g st s) :=
  ((modGauge_only s _ _).mono).andThen (report_only _ _ _ _)

theorem homingUpdate_only (g : Fin 8) (r : GaugeRec) : Only [.reports, .ge] s (homingUpdate g r s) := by
  unfold homingUpdate
  dsimp only
  split
  · exact (modGauge_only _ _ _).mono
  · split
    · exact Only.andThen (Only.andThen (modGauge_only s _ _).mono (modGauge_only _ _ _)) (setPointer_only _ _ _)
    · exact (modGauge_only _ _ _).mono
  · exact Only.refl _ _

theorem sweepUpdate_only (g : Fin 8) (r : GaugeRec) : Only [.reports, .ge] s (sweepUpdate g r s) := by
  unfold sweepUpdate
  dsimp only
  split
  · exact (modGauge_only _ _ _).mono
  · split
    · exact Only.andThen (modGauge_only s _ _).mono (setPointer_only _ _ _)
    · exact (modGauge_only _ _ _).mono
  · exact Only.refl _ _

theorem testUpdate_only (g : Fin 8) (r : GaugeRec) : Only [.reports, .ge] s (testUpdate g r s) := by
  unfold testUpdate
  split
  · dsimp only
    split
    · exact Only.andThen (Only.andThen (modGauge_only s _ _).mono (modGauge_only _ _ _)) (report_only _ _ _ _)
    · exact (modGauge_only _ _ _).mono
  · exact Only.refl _ _

theorem unpower_only (g : Fin 8) : Only [.reports, .ge] s (unpower g s) :=
  ((modGauge_only s _ _).mono).trans (setPointer_only _ _ _)

theorem parkingUpdate_only (g : Fin 8) : Only [.reports, .ge] s (parkingUpdate g s) := by
  unfold parkingUpdate
  exact Only.ite (((modGauge_only _ _ _).mono).trans (unpower_only _ _)) (modGauge_only _ _ _).mono

theorem pointerUpdate_only (g : Fin 8) (r : GaugeRec) : Only [.reports, .ge] s (pointerUpdate g r s) := by
  unfold pointerUpdate
  split
  · exact homingUpdate_only _ _ _
  · exact sweepUpdate_only _ _ _
  · exact (modGauge_only _ _ _).mono
  · exact testUpdate_only _ _ _
  · exact parkingUpdate_only _ _
  · exact Only.refl _ _
  · exact Only.refl _ _

theorem holdGauge_only (g : Fin 8) : Only [.reports, .ge] s (holdGauge g s) := by
  unfold holdGauge
  exact Only.ite (((modGauge_only _ _ _).mono).trans (setPointer_only _ _ _)) (Only.refl _ _)

theorem resumeGauge_only (g : Fin 8) : Only pointerParts s (resumeGauge g s) := by
  unfold resumeGauge
  split
  · split
    · dsimp only
      refine Only.trans ?_ (Only.inFreeOrder ?_)
      · refine Only.andThen ?_ (modGauge_only _ _ _)
        split
        · exact Only.andThen (modGauge_only s _ _).mono (report_only _ _ _ _)
        · exact Only.refl _ _
      · intro u hu t
        simp only [List.mem_cons, Prod.mk.injEq, List.not_mem_nil, or_false] at hu
        rcases hu with ⟨-, rfl⟩ | ⟨-, rfl⟩
        · exact (setPointer_only _ _ _).mono
        · exact (setPresence_only _ _ _).mono
    · exact Only.refl _ _
  · exact Only.andThen (modGauge_only s _ _).mono (setPointer_only _ _ _)
  · exact Only.refl _ _

theorem gaugeRunEntry_only (g : Fin 8) : Only [.reports, .ge] s (gaugeRunEntry g s) := by
  unfold gaugeRunEntry
  split
  · split
    · exact Only.andThen (modGauge_only s _ _).mono (setPointer_only _ _ _)
    · exact Only.andThen (modGauge_only s _ _).mono (setPointer_only _ _ _)
  · exact Only.refl _ _

theorem parkGauge_only (g : Fin 8) : Only [.reports, .ge] s (parkGauge g s) := by
  unfold parkGauge
  split
  · exact (modGauge_only _ _ _).mono
  · exact Only.refl _ _
  · exact setPointer_only _ _ _

theorem stopGauge_only (g : Fin 8) : Only [.reports, .ge] s (stopGauge g s) := by
  unfold stopGauge
  exact Only.ite (Only.refl _ _) (unpower_only _ _)

theorem endGaugeTest_only (g : Fin 8) : Only [.reports, .ge] s (endGaugeTest g s) := by
  unfold endGaugeTest
  exact Only.ite (Only.andThen (modGauge_only s _ _).mono (setPointer_only _ _ _))
    (Only.ite (modGauge_only _ _ _).mono (Only.refl _ _))

/-! ## The session -/

theorem endTestsAtBlocks_only (c : EndCause) : Only [.reports, .ge, .ao] s (endTestsAtBlocks c s) := by
  unfold endTestsAtBlocks
  refine Only.trans (Only.ite (Only.refl _ _) ?_) (alertsEndTests_only _).mono
  exact Only.forEach fun g t => (endGaugeTest_only t g).mono

theorem endTests_only (c : EndCause) : Only [.reports, .ge, .ao] s (endTests c s) := by
  unfold endTests
  exact Only.ite ((report_only s _ _ _).mono.trans (endTestsAtBlocks_only _ _)) (Only.refl _ _)

theorem endSession_only (c : EndCause) : Only [.reports, .ge, .ao, .service] s (endSession c s) := by
  have flag (t : State) : Only [.reports, .ge, .ao, .service] t (t.modSc fun c => { c with service := false }) :=
    ⟨fun b hb => by cases b <;> simp_all [Part.same, Controller.bare], .refl _⟩
  unfold endSession
  exact Only.ite (((endTests_only s c).mono.trans (flag _)).andThen (report_only _ _ _ _)) (Only.refl _ _)

theorem stopActivation_only : Only [.reports, .ge, .ao] s (stopActivation s) := by
  unfold stopActivation
  exact Only.ite (endTests_only _ _) (Only.refl _ _)

/-! ## Warning Manager -/

theorem setWarnState_only (w : Fin 64) (st : WarnState) : Only [.reports, .wm] s (setWarnState w st s) :=
  (modInst_only s _ _).mono.andThen (report_only _ _ _ _)

theorem activate_only (w : Fin 64) : Only [.wm] s (activate w s) := modWm_only s _

theorem enterActive_only (w : Fin 64) : Only warnParts s (enterActive w s) := by
  unfold enterActive
  refine Only.trans (((activate_only s w).mono.andThen (setWarnState_only _ _ _)).andThen (takeList_only _))
    (Only.inFreeOrder ?_)
  intro u hu t
  simp only [List.mem_cons, Prod.mk.injEq, List.not_mem_nil, or_false] at hu
  rcases hu with ⟨-, rfl⟩ | ⟨-, rfl⟩
  · exact (setPresence_only _ _ _).mono
  · exact (stopActivation_only _).mono

theorem startWarning_only (w : Fin 64) (d : WarnDef) : Only warnParts s (startWarning w d s) := by
  unfold startWarning
  exact Only.ite (enterActive_only _ _) ((modInst_only s _ _).mono.andThen (setWarnState_only _ _ _))

theorem handList_only (w : Fin 64) (st : WarnState) : Only [.wm, .ao] s (handList w st s) :=
  Only.andThen (Only.ite (modWm_only _ _).mono (Only.refl _ _)) (takeList_only _)

theorem handAbsence_only (w : Fin 64) (p : Bool) : Only faultParts s (handAbsence w p s) := by
  unfold handAbsence
  exact Only.ite (setPresence_only _ _ _) (Only.refl _ _)

theorem leaveActive_only (w : Fin 64) (st : WarnState) : Only warnParts s (leaveActive w st s) :=
  (((modInst_only s _ _).mono.andThen (setWarnState_only _ _ _)).andThen (handList_only _ _ _)).andThen
    (handAbsence_only _ _ _)

theorem actOn_only (w : Fin 64) (d : WarnDef) (q : Bool) : Only warnParts s (actOn w d q s) := by
  unfold actOn
  split
  · exact startWarning_only _ _ _
  · exact (modInst_only s _ _).mono.andThen (setWarnState_only _ _ _)
  · exact leaveActive_only _ _ _
  · exact leaveActive_only _ _ _
  · exact enterActive_only _ _
  · exact Only.refl _ _

theorem updateConds_only (reads : Condition → Bool) (v : View) : Only [.wm] s (updateConds reads v s) :=
  modWm_only s _

theorem askWarning_only (reads : WarnDef → Bool) (v : View) (w : Fin 64) :
    Only warnParts s (askWarning reads v w s) := by
  unfold askWarning
  split
  · exact Only.ite (actOn_only _ _ _ _) (Only.refl _ _)
  · exact Only.refl _ _

theorem evaluate_only (reads : Condition → Bool) (motion : Bool) : Only warnParts s (evaluate reads motion s) := by
  unfold evaluate
  split
  · exact Only.refl _ _
  · split
    · exact (updateConds_only _ _ _).mono.trans (Only.forEach fun w t => askWarning_only t _ _ w)
    · exact Only.refl _ _

theorem changeView_only (f : View → View) : Only [.wm] s (changeView f s) := by
  unfold changeView
  exact Only.ite (modWm_only _ _) (Only.refl _ _)

theorem viewChannels_only (chs : List (Fin 40)) : Only [.wm] s (viewChannels chs s) := changeView_only s _

theorem evaluateChannels_only (chs : List (Fin 40)) : Only warnParts s (evaluateChannels chs s) :=
  evaluate_only s _ _

theorem handDisplay_only (g : Fin 8) : Only warnParts s (handDisplay g s) :=
  (changeView_only s _).mono.trans (evaluate_only _ _ _)

theorem handDoorCond_only (l : Fin 8) (c : DoorCond) : Only warnParts s (handDoorCond l c s) :=
  (changeView_only s _).mono.trans (evaluate_only _ _ _)

theorem handSupplyToWm_only : Only warnParts s (handSupplyToWm s) :=
  (changeView_only s _).mono.trans (evaluate_only _ _ _)

theorem handMotionToWm_only : Only warnParts s (handMotionToWm s) :=
  (changeView_only s _).mono.trans (evaluate_only _ _ _)

theorem acknowledge_only (w : Fin 64) (d : WarnDef) : Only warnParts s (acknowledge w d s).1 := by
  unfold acknowledge
  split
  · split
    · exact (((modInst_only s _ _).mono.andThen (setWarnState_only _ _ _)).andThen (takeList_only _))
    · exact Only.refl _ _
  · exact leaveActive_only _ _ _
  · split
    · exact (modInst_only _ _ _).mono
    · exact Only.refl _ _
  · exact Only.refl _ _
  · exact Only.refl _ _

theorem resetWarnings_only : Only [.wm] s (resetWarnings s) := modWm_only s _

theorem warningsRunEntry_only : Only warnParts s (warningsRunEntry s) := evaluate_only s _ _

theorem warningsLeaveRun_only : Only [.reports, .wm, .ao, .fm, .jc] s (warningsLeaveRun s) := by
  refine Only.andThen (Only.trans (modWm_only s _).mono (Only.forEach fun w t => ?_)) (alertsLeaveRun_only _)
  unfold absentWarning
  exact Only.ite (setPresence_only _ _ _).mono (Only.refl _ _)

/-! ## Derivation of the gauges -/

theorem deriveGauge_only (g : Fin 8) : Only warnParts s (deriveGauge g s) := by
  have shown (t : State) (p q : Prop) [Decidable p] [Decidable q] (v : Option Word16) : Only warnParts t
      (if q then handDisplay g (if p then report .gaugeLimited g.val v t else t)
        else if p then report .gaugeLimited g.val v t else t) := by
    have h : Only warnParts t (if p then report .gaugeLimited g.val v t else t) :=
      Only.ite (report_only _ _ _ _).mono (Only.refl _ _)
    exact Only.ite (h.trans (handDisplay_only _ _)) h
  unfold deriveGauge
  split
  · split
    · exact (modGauge_only s _ _).mono.trans (shown _ _ _ _)
    · exact Only.refl _ _
  · exact Only.refl _ _

theorem deriveGauges_only (chs : List (Fin 40)) : Only warnParts s (deriveGauges chs s) :=
  Only.forEach fun g t => Only.ite (deriveGauge_only t g) (Only.refl _ _)

/-! ## Door Monitor -/

theorem deriveDoorway_only (w : Fin 4) : Only [.reports, .dm] s (deriveDoorway w s) := by
  unfold deriveDoorway
  dsimp only
  split
  · exact (modDm_only s _).mono.andThen (report_only _ _ _ _)
  · exact (modDm_only s _).mono

theorem setDoorsClear_only (on : Bool) : Only [.reports, .dm] s (setDoorsClear on s) := by
  unfold setDoorsClear
  exact Only.ite (Only.refl _ _) ((modDm_only s _).mono.andThen (report_only _ _ _ _))

theorem deriveDoorsClear_only : Only [.reports, .dm] s (deriveDoorsClear s) := setDoorsClear_only s _

theorem queueDoorStats_only : Only [.jc] s (queueDoorStats s) := queueRecord_only s _

theorem handConds_only (i : Fin 8) : Only doorParts s (handConds i s) :=
  (modDm_only s _).mono.andThen (handDoorCond_only _ _ _)

theorem deriveDoorwayOf_only (l : Leaf) : Only [.reports, .dm] s (deriveDoorwayOf l s) := by
  unfold deriveDoorwayOf
  split
  · exact deriveDoorway_only _ _
  · exact Only.refl _ _

theorem concludeLeaf_only (i : Fin 8) (r : LeafRun) : Only doorParts s (concludeLeaf i r s) := by
  unfold concludeLeaf
  refine Only.trans ?_ (Only.inFreeOrder ?_)
  · have derived (t : State) (p : Prop) [Decidable p] (l : Leaf) :
        Only doorParts t (if p then t else deriveDoorsClear (deriveDoorwayOf l t)) :=
      Only.ite (Only.refl _ _) ((deriveDoorwayOf_only _ _).mono.andThen (deriveDoorsClear_only _))
    refine Only.trans ?_ (derived _ _ _)
    have reported (t : State) : Only doorParts t
        (match r.closing with
          | some n => report .closingTime i.val (val n) t
          | none => t) := by
      split
      · exact (report_only _ _ _ _).mono
      · exact Only.refl _ _
    refine Only.trans ?_ (reported _)
    exact (modDm_only s _).mono.trans (Only.foldl fun _ _ => (report_only _ _ _ _).mono)
  · intro u hu t
    simp only [List.mem_cons, Prod.mk.injEq, List.not_mem_nil, or_false] at hu
    rcases hu with ⟨-, rfl⟩ | ⟨-, rfl⟩ | ⟨-, rfl⟩ | ⟨-, rfl⟩ | ⟨-, rfl⟩
    · exact handConds_only _ _
    · exact (setPresence_only _ _ _).mono
    · exact (fireSource_only _ _).mono
    · exact (setPresence_only _ _ _).mono
    · exact (queueDoorStats_only _).mono

theorem evaluateLeaf_only (chs : List (Fin 40)) (i : Fin 8) : Only doorParts s (evaluateLeaf chs i s) :=
  concludeLeaf_only s _ _

theorem recordReadings_only (chs : List (Fin 40)) (i : Fin 8) : Only [.dm] s (recordReadings chs i s) := by
  unfold recordReadings
  dsimp only
  split
  · exact modLeaf_only _ _ _
  · exact Only.refl _ _

theorem doorsTake_only (chs : List (Fin 40)) : Only doorParts s (doorsTake chs s) :=
  Only.forEach fun i t => Only.ite
    (Only.ite (evaluateLeaf_only _ _ _) (Only.ite (recordReadings_only _ _ _).mono (Only.refl _ _))) (Only.refl _ _)

theorem travelExpired_only (i : Fin 8) : Only doorParts s (travelExpired i s) := concludeLeaf_only s _ _

theorem lockExpired_only (i : Fin 8) : Only doorParts s (lockExpired i s) := concludeLeaf_only s _ _

theorem stopDoorTimers_only : Only [.dm] s (stopDoorTimers s) := modDm_only s _

end

end Sys2Proof.Machine
end

