-- ==== Sys2Proof/Laws/FootprintsControl.lean ====
section
/-! SUPPORT. The parts of the state that the Channel Interpreter, the Conversion Unit and the State Controller can change, one
lemma per operation. -/

namespace Sys2Proof.Machine

set_option Elab.async false

/-- What a hand-over of the Channel Interpreter can change in the blocks that read it. -/
abbrev handParts : List Part := [.reports, .service, .ge, .wm, .ao, .dm, .fm, .jc, .free]

/-- What the Channel Interpreter's own work can change. -/
abbrev interpParts : List Part := [.reports, .service, .ci, .ge, .wm, .ao, .dm, .fm, .jc, .free]

/-- What the completion of a conversion can change, apart from what follows it in the State Controller. -/
abbrev convParts : List Part := [.reports, .service, .cu, .ci, .ge, .wm, .ao, .dm, .fm, .jc, .free]

/-- What a change of operating state can change: all but the waiting commands and the link. -/
abbrev controlParts : List Part := [.reports, .sc, .service, .cu, .ci, .ge, .wm, .ao, .dm, .fm, .jc, .free]

section
variable (s : State)

/-! ## Channel Interpreter -/

theorem handPresences_only (ps : List (FaultSource × Bool)) : Only faultParts s (handPresences ps s) :=
  Only.foldl fun _ _ => setPresence_only _ _ _

/-- What a hand-over can change, where what is handed besides the channels changes no more. -/
theorem handChannels_only (before : Interp) (all : Bool) (faults : List (FaultSource × Bool))
    (more : List (Bool × (State → State))) (hmore : ∀ u, (true, u) ∈ more → ∀ t, Only handParts t (u t)) :
    Only handParts s (handChannels before all faults more s) := by
  refine (viewChannels_only s _).mono.trans (Only.inFreeOrder ?_)
  intro u hu t
  simp only [List.cons_append, List.nil_append, List.mem_cons, Prod.mk.injEq] at hu
  rcases hu with ⟨-, rfl⟩ | ⟨-, rfl⟩ | ⟨-, rfl⟩ | ⟨-, rfl⟩ | ⟨-, rfl⟩ | hu
  · exact Only.forEach fun g t => (deriveGauge_only t g).mono
  · exact (deriveGauges_only _ _).mono
  · exact (doorsTake_only _ _).mono
  · exact (evaluateChannels_only _ _).mono
  · exact (handPresences_only _ _).mono
  · exact hmore u hu t

/-- A hand-over of channels alone. -/
theorem handChannels_nil_only (before : Interp) (all : Bool) (faults : List (FaultSource × Bool)) :
    Only handParts s (handChannels before all faults [] s) :=
  handChannels_only s before all faults [] (by simp)

theorem reportWired_only (ch : Fin 24) (a b : Wired) : Only [.reports] s (reportWired ch a b s) := by
  have h (t : State) (p : Prop) [Decidable p] (e : Event) (i : Nat) (v : Option Word16) :
      Only [.reports] t (if p then report e i v t else t) := Only.ite (report_only _ _ _ _) (Only.refl _ _)
  exact ((h s _ _ _ _).trans (h _ _ _ _ _)).trans (h _ _ _ _ _)

theorem switchPrimary_only (p : Fin 24) : Only [.reports, .ci] s (switchPrimary p s) := by
  unfold switchPrimary
  split
  · exact Only.ite ((modWired_only s _ _).mono.andThen (report_only _ _ _ _)) (Only.refl _ _)
  · exact Only.refl _ _

theorem switchAround_only (ch : Fin 24) : Only [.reports, .ci] s (switchAround ch s) := by
  unfold switchAround
  refine (switchPrimary_only s ch).trans ?_
  dsimp only
  split
  · exact switchPrimary_only _ _
  · exact Only.refl _ _

theorem wiredResult_only (ch : Fin 24) (r : ResultRecord) : Only interpParts s (wiredResult ch r s) := by
  unfold wiredResult
  split
  · exact (((modWired_only s _ _).mono.andThen (reportWired_only _ _ _ _)).andThen (switchAround_only _ _)).andThen
      (handChannels_nil_only _ _ _ _)
  · exact Only.refl _ _

theorem referenceGood_only (n : Nat) : Only interpParts s (referenceGood n s) := by
  unfold referenceGood
  exact Only.ite
    (((modCi_only s _).mono.andThen (report_only _ _ _ _)).andThen (handChannels_nil_only _ _ _ _))
    (Only.ite ((modCi_only s _).mono.andThen (report_only _ _ _ _)) (Only.refl _ _))

theorem declareReferenceFault_only (n : Nat) : Only interpParts s (declareReferenceFault n s) :=
  ((modCi_only s _).mono.andThen (report_only _ _ _ _)).andThen (handChannels_nil_only _ _ _ _)

theorem referenceFailed_only (n : Nat) : Only interpParts s (referenceFailed n s) := by
  have h : Only interpParts s
      (if s.ci.failCount = 0 then report .referenceFailed 0 (val n) s else s) :=
    Only.ite (report_only _ _ _ _).mono (Only.refl _ _)
  exact (h.andThen (modCi_only _ _)).andThen (handChannels_nil_only _ _ _ _)

theorem referenceResult_only (r : ResultRecord) : Only interpParts s (referenceResult r s) := by
  have h (t : State) : Only interpParts t
      (if t.ci.failCount < 2 then referenceFailed r.count t
        else if t.ci.refFault then t else declareReferenceFault r.count t) :=
    Only.ite (referenceFailed_only _ _) (Only.ite (Only.refl _ _) (declareReferenceFault_only _ _))
  exact (modCi_only s _).mono.trans (Only.ite (referenceGood_only _ _) (h _))

theorem gaugesTakeSupply_only (b : SupplyState) : Only pointerParts s (gaugesTakeSupply b s) := by
  unfold gaugesTakeSupply
  exact Only.ite (Only.forEach fun g t => (holdGauge_only t g).mono)
    (Only.ite (Only.forEach fun g t => resumeGauge_only t g) (Only.refl _ _))

theorem supplyResult_only (r : ResultRecord) : Only interpParts s (supplyResult r s) := by
  unfold supplyResult
  dsimp only
  split
  · exact (modCi_only s _).mono
  · refine Only.trans ((modCi_only s _).mono.andThen (report_only _ _ _ _)) (Only.inFreeOrder ?_)
    intro u hu t
    simp only [List.mem_cons, Prod.mk.injEq, List.not_mem_nil, or_false] at hu
    rcases hu with ⟨-, rfl⟩ | ⟨-, rfl⟩ | ⟨-, rfl⟩
    · exact (gaugesTakeSupply_only _ _).mono
    · exact (handSupplyToWm_only _).mono
    · exact (handPresences_only _ _).mono

theorem takeResult_only (r : ResultRecord) : Only interpParts s (takeResult r s) := by
  unfold takeResult
  split
  · exact referenceResult_only _ _
  · exact supplyResult_only _ _
  · exact wiredResult_only _ _ _

theorem sessionTakesMotion_only : Only handParts s (sessionTakesMotion s) := by
  unfold sessionTakesMotion
  exact Only.ite (Only.refl _ _) (endSession_only _ _).mono

theorem handMotion_only : Only handParts s (handMotion s) := by
  refine Only.trans (report_only s _ _ _).mono (Only.inFreeOrder ?_)
  intro u hu t
  simp only [List.mem_cons, Prod.mk.injEq, List.not_mem_nil, or_false] at hu
  rcases hu with ⟨-, rfl⟩ | ⟨-, rfl⟩
  · exact (handMotionToWm_only _).mono
  · exact sessionTakesMotion_only _

theorem reportNet_only (n : Fin 16) (a b : Net) : Only [.reports] s (reportNet n a b s) := by
  unfold reportNet
  exact Only.ite (Only.refl _ _) (report_only _ _ _ _)

theorem handNetworks_only (before : Interp) : Only interpParts s (handNetworks before s) := by
  refine (modCi_only s _).mono.trans (Only.mono (handChannels_only _ _ _ _ _ ?_))
  intro u hu t
  simp only [List.mem_cons, Prod.mk.injEq, List.not_mem_nil, or_false] at hu
  obtain ⟨-, rfl⟩ := hu
  exact handMotion_only _

theorem applyPost_only (n : Fin 16) (v : Int) : Only [.reports, .ci] s (applyPost n v s) := by
  have h (t : State) (p : Prop) [Decidable p] :
      Only [.reports, .ci] t (if p then report .channelLimited (netCh n).val none t else t) :=
    Only.ite (report_only _ _ _ _).mono (Only.refl _ _)
  exact ((modNet_only s _ _).mono.trans (h _ _)).andThen (reportNet_only _ _ _ _)

theorem postNetwork_only (ps : List (Fin 16 × Int)) : Only interpParts s (postNetwork ps s) := by
  have h : Only interpParts s (ps.foldl (fun t p => applyPost p.1 p.2 t) s) :=
    Only.foldl fun p t => (applyPost_only t p.1 p.2).mono
  exact h.trans (handNetworks_only _ _)

theorem netExpired_only (n : Fin 16) (f : Net → Net) : Only interpParts s (netExpired n f s) :=
  ((modNet_only s _ _).mono.andThen (reportNet_only _ _ _ _)).trans (handNetworks_only _ _)

theorem standstillExpired_only : Only interpParts s (standstillExpired s) := by
  unfold standstillExpired
  exact Only.ite (modCi_only s _).mono ((modCi_only s _).mono.andThen (handMotion_only _))

theorem stopStandstill_only : Only [.ci] s (stopStandstill s) := modCi_only s _

/-! ## Conversion Unit -/

theorem queuePrio_only (ch : Fin 24) (h : Bool) : Only [.cu] s (queuePrio ch h s) := modCu_only s _

theorem reportDropped_only (chs : List (Fin 24)) : Only [.reports] s (reportDropped chs s) :=
  Only.foldl fun _ _ => report_only _ _ _ _

theorem startConversion_only (t : Target) (o : Origin) (h : Bool) (n : Nat) :
    Only [.cu] s (startConversion t o h n s) := modCu_only s _

theorem startElement_only (n : Nat) : Only [.cu] s (startElement n s) := startConversion_only s _ _ _ _

theorem chooseConversion_only (e : Bool) (n : Nat) : Only [.cu] s (chooseConversion e n s) := by
  unfold chooseConversion
  split
  · exact startElement_only _ _
  · exact Only.ite ((modCu_only s _).trans (startConversion_only _ _ _ _ _)) (startElement_only _ _)

theorem powerComparators_only (on : Fin 24 → Bool) : Only [.cu, .free] s (powerComparators on s) :=
  ⟨fun b hb => by cases b <;> simp_all [Part.same, powerComparators], .refl _⟩

theorem latchWork_only (ch : Fin 24) : Only [.cu] s (latchWork ch s) := by
  unfold latchWork
  exact Only.ite (Only.ite (modCu_only _ _) (Only.ite (queuePrio_only _ _ _) (Only.refl _ _))) (Only.refl _ _)

theorem latchWorkOf_only (t : Target) : Only [.cu] s (latchWorkOf t s) := by
  unfold latchWorkOf
  split
  · exact latchWork_only _ _
  · exact Only.refl _ _

theorem reportConverted_only (r : ResultRecord) : Only [.reports] s (reportConverted r s) := by
  unfold reportConverted
  split
  · exact report_only _ _ _ _
  · exact Only.refl _ _

theorem completeConversion_only (c : Conversion) (r : ResultRecord) : Only convParts s (completeConversion c r s) := by
  unfold completeConversion
  refine Only.andThen (Only.andThen (Only.trans (modCu_only s _).mono (Only.inFreeOrder ?_))
    (latchWorkOf_only _ _)) (modCu_only _ _)
  intro u hu t
  simp only [List.mem_cons, Prod.mk.injEq, List.not_mem_nil, or_false] at hu
  rcases hu with ⟨-, rfl⟩ | ⟨-, rfl⟩
  · exact (takeResult_only _ _).mono
  · exact (reportConverted_only _ _).mono

theorem convRunEntry_only : Only [.cu, .free] s (convRunEntry s) := by
  unfold convRunEntry
  exact Only.ite
    ((((modCu_only s _).mono.trans (powerComparators_only _ _)).andThen (modCu_only _ _)).andThen (startElement_only _ _))
    (((modCu_only s _).mono.trans (powerComparators_only _ _)).andThen (modCu_only _ _))

theorem convPark_only : Only [.cu, .free] s (convPark s) := by
  unfold convPark
  exact ((modCu_only s _).mono.trans (powerComparators_only _ _)).andThen (modCu_only _ _)

theorem convStop_only : Only [.cu] s (convStop s) := modCu_only s _

theorem beginWatchPass_only (n : Nat) : Only [.cu] s (beginWatchPass n s) :=
  (modCu_only s _).trans (startElement_only _ _)

/-! ## Doors at a change of state -/

theorem resetLeaves_only : Only [.dm] s (resetLeaves s) := modDm_only s _

theorem doorsPark_only : Only [.dm] s (doorsPark s) := (modDm_only s _).trans (modDm_only _ _)

theorem parkedEvaluate_only (i : Fin 8) : Only [.reports, .dm, .fm, .jc, .free] s (parkedEvaluate i s) := by
  have moved (t : State) (p : Prop) [Decidable p] (l : Leaf) (v : Option Word16) : Only [.reports, .dm, .fm, .jc, .free] t
      (if p then deriveDoorwayOf l (report .leafState i.val v t) else t) :=
    Only.ite ((report_only _ _ _ _).mono.andThen (deriveDoorwayOf_only _ _)) (Only.refl _ _)
  unfold parkedEvaluate
  dsimp only
  split
  · refine Only.trans ((modLeaf_only s _ _).mono.trans (moved _ _ _ _)) (Only.inFreeOrder ?_)
    intro u hu t
    simp only [List.mem_cons, Prod.mk.injEq, List.not_mem_nil, or_false] at hu
    rcases hu with ⟨-, rfl⟩ | ⟨-, rfl⟩ | ⟨-, rfl⟩
    · exact (setPresence_only _ _ _).mono
    · exact (setPresence_only _ _ _).mono
    · exact (fireSource_only _ _).mono
  · exact Only.refl _ _

/-! ## State Controller -/

theorem reportState_only : Only [.reports] s (reportState s) := report_only s _ _ _

theorem faultsAndWarnings_only : Only warnParts s (faultsAndWarnings s) :=
  (ageEntries_only s).mono.trans (warningsRunEntry_only _)

theorem enterRun_only : Only controlParts s (enterRun s) := by
  refine Only.trans ?_ (Only.inFreeOrder ?_)
  · exact Only.andThen (Only.andThen (Only.andThen (Only.andThen (Only.andThen (Only.andThen
      (modSc_only s _).mono (modCi_only _ _)) (modGe_only _ _)) (resetLeaves_only _)) (faultsRunEntry_only _))
      ((resetWarnings_only _).mono.andThen (alertsRunEntry_only _) (cs := [.ao]) (bs := [.wm, .ao])))
      (convRunEntry_only _)
  · intro u hu t
    simp only [List.mem_cons, Prod.mk.injEq, List.not_mem_nil, or_false] at hu
    rcases hu with ⟨-, rfl⟩ | ⟨-, rfl⟩ | ⟨-, rfl⟩ | ⟨-, rfl⟩ | ⟨-, rfl⟩
    · exact (reportState_only _).mono
    · exact (reportDropped_only _ _).mono
    · exact Only.forEach fun g t => (gaugeRunEntry_only t g).mono
    · exact (deriveDoorsClear_only _).mono
    · exact (faultsAndWarnings_only _).mono

theorem enterParked_only : Only controlParts s (enterParked s) := by
  refine Only.trans ?_ (Only.inFreeOrder ?_)
  · exact Only.andThen (Only.andThen (Only.andThen (modSc_only s _).mono (stopStandstill_only _)) (doorsPark_only _))
      (convPark_only _)
  · intro u hu t
    simp only [List.mem_cons, Prod.mk.injEq, List.not_mem_nil, or_false] at hu
    rcases hu with ⟨-, rfl⟩ | ⟨-, rfl⟩
    · exact (reportState_only _).mono
    · exact (reportDropped_only _ _).mono

theorem queueCycle_only : Only [.jc] s (queueCycle s) := queueRecord_only s _

theorem enterShutdown_only : Only controlParts s (enterShutdown s) := by
  refine Only.trans ?_ (Only.inFreeOrder ?_)
  · exact Only.andThen (Only.andThen (Only.andThen (Only.andThen (Only.andThen (endSession_only s _).mono
      (queueCycle_only _)) (modSc_only _ _)) (stopStandstill_only _)) (queueDoorStats_only _)) (warningsLeaveRun_only _)
  · intro u hu t
    simp only [List.mem_cons, Prod.mk.injEq, List.not_mem_nil, or_false] at hu
    rcases hu with ⟨-, rfl⟩ | ⟨-, rfl⟩ | ⟨-, rfl⟩
    · exact (reportState_only _).mono
    · exact Only.forEach fun g t => (parkGauge_only t g).mono
    · exact (setDoorsClear_only _ _).mono

theorem stopFromRun_only : Only controlParts s (stopFromRun s) := by
  refine Only.trans ?_ (Only.inFreeOrder ?_)
  · exact Only.andThen (Only.andThen (Only.andThen (Only.andThen (Only.andThen (endSession_only s _).mono
      (modSc_only _ _)) (stopStandstill_only _)) (stopDoorTimers_only _)) (convStop_only _)) (warningsLeaveRun_only _)
  · intro u hu t
    simp only [List.mem_cons, Prod.mk.injEq, List.not_mem_nil, or_false] at hu
    rcases hu with ⟨-, rfl⟩ | ⟨-, rfl⟩ | ⟨-, rfl⟩ | ⟨-, rfl⟩
    · exact (reportState_only _).mono
    · exact (reportDropped_only _ _).mono
    · exact Only.forEach fun g t => (stopGauge_only t g).mono
    · exact (setDoorsClear_only _ _).mono

theorem stopFromParked_only : Only controlParts s (stopFromParked s) := by
  refine Only.trans ((modSc_only s _).mono.andThen (convStop_only _)) (Only.inFreeOrder ?_)
  intro u hu t
  simp only [List.mem_cons, Prod.mk.injEq, List.not_mem_nil, or_false] at hu
  rcases hu with ⟨-, rfl⟩ | ⟨-, rfl⟩
  · exact (reportState_only _).mono
  · exact (reportDropped_only _ _).mono

theorem completeShutdown_only : Only controlParts s (completeShutdown s) :=
  (modSc_only s _).mono.trans (Only.ite (enterRun_only _) (enterParked_only _))

theorem ignitionOn_only : Only controlParts s (ignitionOn s) := by
  unfold ignitionOn
  refine Only.trans ((modSc_only s fun c => { c with ignOn := true }).mono.andThen (report_only _ .ignition 0 (val 1))) ?_
  dsimp only
  split
  · exact (modSc_only _ _).mono
  · exact enterRun_only _
  · exact (modSc_only _ _).mono
  · exact (modSc_only _ _).mono.trans (enterRun_only _)
  · exact Only.refl _ _

theorem ignitionOff_only : Only controlParts s (ignitionOff s) := by
  unfold ignitionOff
  refine Only.trans ((modSc_only s fun c => { c with ignOn := false }).mono.andThen (report_only _ .ignition 0 (val 0))) ?_
  dsimp only
  split
  · exact enterShutdown_only _
  · exact (modSc_only _ _).mono
  · exact (modSc_only _ _).mono
  · exact Only.refl _ _

theorem operatingSecond_only : Only [.sc, .service, .jc] s (operatingSecond s) := by
  have h (t : State) : Only [.sc, .service, .jc] t
      (if 3600 ≤ t.sc.cycleInterval then queueCycle (t.modSc fun c => { c with cycleInterval := 0 }) else t) :=
    Only.ite ((modSc_only t _).mono.andThen (queueCycle_only _)) (Only.refl _ _)
  exact (modSc_only s _).mono.trans (h _)

theorem beginWake_only (ch : Fin 24) : Only controlParts s (beginWake ch s) :=
  ((modSc_only s _).mono.andThen (modCu_only _ _)).andThen (report_only _ _ _ _)

theorem latchSet_only (ch : Fin 24) : Only controlParts s (latchSet ch s) := by
  unfold latchSet
  refine Only.trans (modCu_only s fun u => { u with latch := vset u.latch ch .set }).mono ?_
  dsimp only
  split
  · exact (queuePrio_only _ _ _).mono
  · exact (queuePrio_only _ _ _).mono
  · exact beginWake_only _ _
  · exact (modSc_only _ _).mono.andThen (beginWatchPass_only _ _)
  · exact Only.refl _ _

theorem watchSettled_only : Only controlParts s (watchSettled s) :=
  ((modSc_only s _).mono.andThen (modCu_only _ _)).andThen (beginWatchPass_only _ _)

theorem endWatchPass_only (n : Nat) : Only controlParts s (endWatchPass n s) := by
  have h (t : State) : Only controlParts t
      (if t.sc.ignPending then enterRun t
        else if t.watchArmed then t.modSc fun c => { c with watch := .draining } else beginWatchPass n t) :=
    Only.ite (enterRun_only _) (Only.ite (modSc_only _ _).mono (beginWatchPass_only _ _).mono)
  exact Only.trans (Only.forEach fun i t => (parkedEvaluate_only t i).mono) (h _)

theorem watchQuiet_only : Only controlParts s (watchQuiet s) :=
  ((modSc_only s _).mono.andThen (modCu_only _ _)).andThen (report_only _ _ _ _)

theorem afterConversion_only (o : Origin) (n : Nat) : Only controlParts s (afterConversion o n s) := by
  unfold afterConversion
  exact Only.ite (chooseConversion_only _ _ _).mono
    (Only.ite (Only.ite (endWatchPass_only _ _) (startElement_only _ _).mono) (Only.refl _ _))

end

end Sys2Proof.Machine
end

