-- ==== Sys2Proof/Laws/Operations.lean ====
section
/-! SUPPORT. What the shared operations do, one lemma or a few per operation: everything an operation can answer, said once,
so that a proof about a command cites it and does not unfold it. -/

namespace Sys2Proof.Machine

set_option Elab.async false

/-! ## Reports (R9) -/

/-- The queue after a report: the newest 63 at most, then the new one. -/
theorem Link.place_reports (l : Link) (e : Event) (i : Nat) (v : Option Word16) :
    (l.place e i v).reports = (if 64 ≤ l.reports.length then l.reports.drop 1 else l.reports) ++
      [{ seq := l.nextSeq, time := l.tripClock, event := e, item := i, value := v }] := rfl

/-- A queue of at most 64 reports stays so. -/
theorem Link.place_length (l : Link) (e : Event) (i : Nat) (v : Option Word16) (h : l.reports.length ≤ 64) :
    (l.place e i v).reports.length ≤ 64 := by
  rw [Link.place_reports]
  split <;> simp <;> omega

/-- The report placed is the newest of the queue. -/
theorem Link.place_getLast (l : Link) (e : Event) (i : Nat) (v : Option Word16) :
    (l.place e i v).reports.getLast? =
      some { seq := l.nextSeq, time := l.tripClock, event := e, item := i, value := v } := by
  rw [Link.place_reports]; simp

/-! ## Outcomes of commands -/

/-- A command whose event can occur acts; else it changes nothing. -/
theorem nextIf_eq (p : Bool) (t s : State) : nextIf p t s = .next (if p = true then t else s) := rfl

theorem nextIf_pos {p : Bool} (h : p = true) (t s : State) : nextIf p t s = .next t := by simp [nextIf, h]

theorem nextIf_neg {p : Bool} (h : p = false) (t s : State) : nextIf p t s = .next s := by simp [nextIf, h]

/-- The reply to a request stands in the transmitter, and nothing else of the state is touched. -/
theorem sendReply_eq (kind : Nat) (tag : Byte) (r : Reply) (s : State) :
    sendReply kind tag r s = { s with li := { s.li with transmitter := .answering (r.frame kind tag) } } := rfl

/-- Everything a good frame of a defined kind can do (R5, R6, R190): it is discarded, or one of three checks refuses it
and the state stands but for the reply, or its owner acts and answers. -/
theorem Request.serve_cases (q : Request) (tag : Byte) (p : List Byte) (s : State) :
    (¬ s.taking ∧ q.serve tag p s = s) ∨
    (s.taking ∧ q.lengths p.length = false ∧ q.serve tag p s = sendReply q.code tag (.refused .badLength) s) ∨
    (s.taking ∧ q.lengths p.length = true ∧ q.states s.sc.opState = false ∧
      q.serve tag p s = sendReply q.code tag (.refused .wrongState) s) ∨
    (s.taking ∧ q.lengths p.length = true ∧ q.states s.sc.opState = true ∧ q.service = true ∧ s.sc.service = false ∧
      q.serve tag p s = sendReply q.code tag (.refused .notInService) s) ∨
    (s.taking ∧ q.lengths p.length = true ∧ q.states s.sc.opState = true ∧ (q.service = true → s.sc.service = true) ∧
      q.serve tag p s = sendReply q.code tag (q.act p s).2 (q.act p s).1) := by
  by_cases ht : s.taking
  swap
  · exact .inl ⟨ht, if_neg ht⟩
  have he : q.serve tag p s = sendReply q.code tag (q.judge p s).2 (q.judge p s).1 := if_pos ht
  rw [he]
  cases hl : q.lengths p.length
  · exact .inr (.inl ⟨ht, rfl, by simp [Request.judge, hl, refuse]⟩)
  cases ho : q.states s.sc.opState
  · exact .inr (.inr (.inl ⟨ht, rfl, rfl, by simp [Request.judge, hl, ho, refuse]⟩))
  cases hq : q.service
  · exact .inr (.inr (.inr (.inr ⟨ht, rfl, rfl, nofun, by simp [Request.judge, hl, ho, hq]⟩)))
  cases hs : s.sc.service
  · exact .inr (.inr (.inr (.inl ⟨ht, rfl, rfl, rfl, rfl, by simp [Request.judge, hl, ho, hq, hs, refuse]⟩)))
  · exact .inr (.inr (.inr (.inr ⟨ht, rfl, rfl, fun _ => rfl, by simp [Request.judge, hl, ho, hq, hs]⟩)))

/-! ## The commit queue (R167) -/

/-- What stands in the queue after a record has joined it: that record, and the others of another key. -/
theorem mem_enqueue {q : List Content} {c x : Content} : x ∈ enqueue q c ↔ x = c ∨ (x ∈ q ∧ x.key ≠ c.key) := by
  unfold enqueue
  split
  · rename_i h
    simp only [List.any_eq_true, decide_eq_true_eq] at h
    obtain ⟨y, hy, hk⟩ := h
    simp only [List.mem_map]
    constructor
    · rintro ⟨z, hz, rfl⟩
      split
      · exact .inl rfl
      · exact .inr ⟨hz, ‹_›⟩
    · rintro (rfl | ⟨hx, hn⟩)
      · exact ⟨y, hy, if_pos hk⟩
      · exact ⟨x, hx, if_neg hn⟩
  · rename_i h
    simp only [List.any_eq_true, decide_eq_true_eq, not_exists, not_and] at h
    simp only [List.mem_append, List.mem_singleton]
    exact ⟨fun m => m.elim (fun m => .inr ⟨m, h x m⟩) .inl, fun m => m.elim .inr fun m => .inl m.1⟩

/-- The keys of the queue after a record has joined it: its key joins at the tail, or stands where it stood. -/
theorem enqueue_keys (q : List Content) (c : Content) :
    (enqueue q c).map Content.key = if c.key ∈ q.map Content.key then q.map Content.key else q.map Content.key ++ [c.key] := by
  unfold enqueue
  have e : (q.any fun x => decide (x.key = c.key)) = decide (c.key ∈ q.map Content.key) := by
    rw [Bool.eq_iff_iff]; simp
  rw [e]
  by_cases h : c.key ∈ q.map Content.key
  · simp only [h, decide_true, if_true, List.map_map]
    apply List.map_congr_left
    intro x _
    simp only [Function.comp]
    split
    · exact (‹x.key = c.key›).symm
    · rfl
  · simp [h]

/-- One record per key stays one record per key. -/
theorem enqueue_nodup {q : List Content} (c : Content) (h : (q.map Content.key).Nodup) :
    ((enqueue q c).map Content.key).Nodup := by
  rw [enqueue_keys]
  split
  · exact h
  · exact List.nodup_append.mpr ⟨h, by simp, fun a ha b hb => by
      rw [List.mem_singleton.mp hb]; rintro rfl; exact absurd ha ‹_›⟩

/-! ## The choice of the array's next operation (R168 to R171) -/

/-- The queue's turn: the head record's program begins with the next record sequence, or the erase goes on, or the array
stays free. -/
theorem Journal.serveQueue_cases (j : Journal) :
    (∃ chars rest, j.queue = .vid chars :: rest ∧
      j.serveQueue = { j with queue := rest, nextRec := j.nextRec + 1 }.begin (.row j.nextRec chars)) ∨
    (∃ c rest, j.queue = c :: rest ∧ c.isVid = false ∧ j.headRoom = true ∧
      j.serveQueue =
        { j with queue := rest, nextRec := j.nextRec + 1 }.begin (.program { seq := j.nextRec, content := c })) ∨
    ((j.queue = [] ∨ ∃ c rest, j.queue = c :: rest ∧ c.isVid = false ∧ j.headRoom = false) ∧
      j.serveQueue = j.eraseOrFree) := by
  unfold Journal.serveQueue
  split
  · exact .inr (.inr ⟨.inl ‹_›, rfl⟩)
  · rename_i c rest h
    split
    · exact .inl ⟨_, _, h, rfl⟩
    · rename_i hv
      have hv' : c.isVid = false := by cases c <;> simp_all [Content.isVid]
      by_cases hr : j.headRoom
      · exact .inr (.inl ⟨c, rest, h, hv', hr, by simp [hr]⟩)
      · simp only [Bool.not_eq_true] at hr
        exact .inr (.inr ⟨.inr ⟨c, rest, h, hv', hr⟩, by simp [hr]⟩)

/-- The erase runs where the reclaim has come to it, else the array stays free. -/
theorem Journal.eraseOrFree_cases (j : Journal) :
    (∃ t ms, j.reclaim = .erasing t ms ∧ j.eraseOrFree = { j with inFlight := some .erase }) ∨
    ((∀ t ms, j.reclaim ≠ .erasing t ms) ∧ j.eraseOrFree = j) := by
  unfold Journal.eraseOrFree
  split
  · exact .inl ⟨_, _, ‹_›, rfl⟩
  · rename_i h
    exact .inr ⟨fun t ms e => h t ms e, rfl⟩

/-- Everything the choice can do. -/
theorem Journal.choose_cases (j : Journal) (cycle : Nat) :
    ((j.inFlight.isSome ∨ j.finishing.isSome) ∧ j.choose cycle = j) ∨
    (j.inFlight = none ∧ j.finishing = none ∧
      ((j.advanceDue = true ∧ j.choose cycle = j.begin (.header (nextInRing j.head))) ∨
       (j.advanceDue = false ∧ ∃ tail slot, j.reclaim = .copying tail slot ∧
         ((∃ i r, j.nextCopy cycle tail slot = some (i, r) ∧ j.choose cycle =
            if j.headRoom then { j with reclaim := .copying tail (i + 1) }.begin (.copy r) else j) ∨
          (j.nextCopy cycle tail slot = none ∧ j.choose cycle =
            ({ j with
                sectors := vmod j.sectors tail fun x => { x with header := .unreadable }
                reclaim := .erasing tail 0 } : Journal).serveQueue))) ∨
       (j.advanceDue = false ∧ (∀ tail slot, j.reclaim ≠ .copying tail slot) ∧ j.choose cycle = j.serveQueue))) := by
  by_cases hb : j.inFlight.isSome || j.finishing.isSome
  · exact .inl ⟨by simpa using hb, by simp only [Journal.choose, hb, if_true]⟩
  have hn : j.inFlight = none ∧ j.finishing = none := by simpa using hb
  refine .inr ⟨hn.1, hn.2, ?_⟩
  by_cases ha : j.advanceDue = true
  · exact .inl ⟨ha, by simp only [Journal.choose, hb, ha, Bool.false_eq_true, if_false, if_true]⟩
  have hf : j.advanceDue = false := by simpa using ha
  have hb' : (j.inFlight.isSome || j.finishing.isSome) = false := by simpa using hb
  cases hr : j.reclaim with
  | copying tail slot =>
    refine .inr (.inl ⟨hf, tail, slot, rfl, ?_⟩)
    cases hx : j.nextCopy cycle tail slot with
    | some ir => exact .inl ⟨ir.1, ir.2, rfl, by simp [Journal.choose, hb', hf, hr, hx]⟩
    | none => exact .inr ⟨rfl, by simp [Journal.choose, hb', hf, hr, hx]⟩
  | idle => exact .inr (.inr ⟨hf, nofun, by simp [Journal.choose, hb', hf, hr]⟩)
  | erasing t ms => exact .inr (.inr ⟨hf, nofun, by simp [Journal.choose, hb', hf, hr]⟩)

/-! ## Fault entries and trackers (R148 to R158) -/

/-- An entry takes a place among the others and changes none of them. -/
theorem insertEntry_perm (e : FaultEntry) (es : List FaultEntry) : (insertEntry e es).Perm (e :: es) := by
  induction es with
  | nil => exact .refl _
  | cons x xs ih =>
    rw [insertEntry]
    split
    · exact .refl _
    · exact (ih.cons x).trans (.swap e x xs)

/-- No two sources have one fault code (R147). -/
theorem faultCode_injective : Function.Injective faultCode := by
  intro a b h
  cases a <;> cases b <;> simp only [faultCode] at h <;> first | omega | (congr 1; omega)

/-- An entry takes its place and the index stays in the order of R151, where no entry has its code. -/
theorem insertEntry_sorted (e : FaultEntry) {es : List FaultEntry} (hs : es.Pairwise fun a b => a.before b = true)
    (hc : ∀ x ∈ es, x.src ≠ e.src) : (insertEntry e es).Pairwise fun a b => a.before b = true := by
  have htrans : ∀ {a b c : FaultEntry}, a.before b = true → b.before c = true → a.before c = true := by
    intro a b c; simp only [FaultEntry.before, Bool.or_eq_true, Bool.and_eq_true, decide_eq_true_eq]; omega
  induction es with
  | nil => simp [insertEntry]
  | cons x xs ih =>
    rw [List.pairwise_cons] at hs
    rw [insertEntry]
    split
    · rename_i hb
      refine List.pairwise_cons.2 ⟨fun y hy => ?_, List.pairwise_cons.2 hs⟩
      rcases List.mem_cons.1 hy with rfl | hy
      · exact hb
      · exact htrans hb (hs.1 y hy)
    · rename_i hb
      have hx : x.before e = true := by
        have := mt (@faultCode_injective x.src e.src) (hc x List.mem_cons_self)
        simp only [FaultEntry.before, Bool.or_eq_true, Bool.and_eq_true, decide_eq_true_eq] at hb ⊢; omega
      refine List.pairwise_cons.2 ⟨fun y hy => ?_, ih hs.2 fun y hy => hc y (List.mem_cons_of_mem _ hy)⟩
      rcases List.mem_cons.1 ((insertEntry_perm e xs).mem_iff.1 hy) with rfl | hy
      · exact hx
      · exact hs.1 y hy

/-- The weakest of some entries is one of them. -/
theorem weakest_mem {es : List FaultEntry} {w : FaultEntry} (h : weakest es = some w) : w ∈ es := by
  have key : ∀ (l : List FaultEntry) (acc : Option FaultEntry),
      (∀ a, acc = some a → a ∈ es) → (∀ x ∈ l, x ∈ es) →
      l.foldl (fun acc e => match acc with
        | some w => if e.weaker w then some e else some w
        | none => some e) acc = some w → w ∈ es := by
    intro l
    induction l with
    | nil => intro acc ha _ h; exact ha w h
    | cons x xs ih =>
      intro acc ha hl h
      refine ih _ ?_ (fun y hy => hl y (List.mem_cons_of_mem _ hy)) h
      intro a e
      cases acc with
      | none => cases e; exact hl x List.mem_cons_self
      | some b =>
        simp only at e
        split at e
        · cases e; exact hl x List.mem_cons_self
        · exact ha a e
  exact key es none (fun _ h => nomatch h) (fun _ h => h) h

/-- The victim of a displacement is an entry whose tracker is not CONFIRMED. -/
theorem FaultMem.victim_mem {f : FaultMem} {v : FaultEntry} (h : f.victim = some v) :
    v ∈ f.index ∧ (f.tracker v.src).state ≠ .confirmed := by
  simpa [List.mem_filter] using weakest_mem h

/-- Everything a handed presence can do. -/
theorem setPresence_cases (src : FaultSource) (p : Bool) (s : State) :
    let t := s.modFm fun f => { f with presence := vset f.presence (sourceIndex src) p }
    (s.fm.present src = p ∧ setPresence src p s = s) ∨
    (s.fm.present src = false ∧ p = true ∧ (s.fm.tracker src).state = .absent ∧
      setPresence src p s = startTracker src t) ∨
    (s.fm.present src = false ∧ p = true ∧ (s.fm.tracker src).state ≠ .absent ∧ setPresence src p s = t) ∨
    (s.fm.present src = true ∧ p = false ∧ setPresence src p s = setTracker src .rest t) := by
  intro t
  by_cases hs : s.fm.present src = p
  · exact .inl ⟨hs, if_pos hs⟩
  have he : setPresence src p s =
      if p then if (s.fm.tracker src).state = .absent then startTracker src t else t else setTracker src .rest t :=
    if_neg hs
  rw [he]
  cases p
  · exact .inr (.inr (.inr ⟨by simpa using hs, rfl, rfl⟩))
  · have hp : s.fm.present src = false := by simpa using hs
    by_cases ha : (s.fm.tracker src).state = .absent
    · exact .inr (.inl ⟨hp, rfl, ha, if_pos ha⟩)
    · exact .inr (.inr (.inl ⟨hp, rfl, ha, if_neg ha⟩))

/-- Everything a confirmation can do. -/
theorem confirmFault_cases (src : FaultSource) (s : State) :
    (∃ e, s.fm.index.find? (fun e => decide (e.src = src)) = some e ∧
      let e' := e.repeated (s.severity src) s.sc.opSeconds s.sc.cycle
      confirmFault src s = report .confirmedRepeat (faultCode src) (val e'.occurrence)
        (queueEntry e' (s.modFm fun f => { f with index := f.index.map fun x => if x.src = src then e' else x }))) ∨
    ((∀ e ∈ s.fm.index, e.src ≠ src) ∧
      ((s.fm.index.length < 32 ∧ confirmFault src s = createEntry src none s) ∨
       (32 ≤ s.fm.index.length ∧ ∃ v, s.fm.victim = some v ∧
         confirmFault src s = createEntry src (some v.src) (displaceEntry v.src src s)) ∨
       (32 ≤ s.fm.index.length ∧ s.fm.victim = none ∧
         confirmFault src s = report .notStored (faultCode src) (val (if s.fm.full then 0 else 1))
           (s.modFm fun f => { f with full := true })))) := by
  unfold confirmFault
  split
  · exact .inl ⟨_, ‹_›, rfl⟩
  · rename_i h
    refine .inr ⟨fun e he => by simpa using List.find?_eq_none.mp h e he, ?_⟩
    split
    · exact .inl ⟨‹_›, rfl⟩
    · rename_i hl
      refine .inr ?_
      split
      · exact .inl ⟨by omega, _, ‹_›, rfl⟩
      · exact .inr ⟨by omega, ‹_›, by cases s.fm.full <;> rfl⟩

/-! ## Warnings (R98 to R103) -/

/-- A warning takes a place in the list and moves none of the others against each other. -/
theorem insertWarning_perm (prio : Fin 64 → Priority) (w : Fin 64) (l : List (Fin 64)) :
    (insertWarning prio w l).Perm (w :: l) := by
  induction l with
  | nil => exact .refl _
  | cons x xs ih =>
    rw [insertWarning]
    split
    · exact (ih.cons x).trans (.swap w x xs)
    · exact .refl _

theorem mem_dropWarning {w x : Fin 64} {l : List (Fin 64)} : x ∈ dropWarning w l ↔ x ∈ l ∧ x ≠ w := by
  simp [dropWarning]

theorem dropWarning_nodup {l : List (Fin 64)} (w : Fin 64) (h : l.Nodup) : (dropWarning w l).Nodup := h.filter _

/-- A fresh activation keeps the list free of repeats. -/
theorem insertWarning_nodup (prio : Fin 64 → Priority) (w : Fin 64) {l : List (Fin 64)} (h : l.Nodup) :
    (insertWarning prio w (dropWarning w l)).Nodup := by
  rw [(insertWarning_perm prio w _).nodup_iff, List.nodup_cons]
  exact ⟨fun hm => (mem_dropWarning.mp hm).2 rfl, dropWarning_nodup w h⟩

/-! ## The chime (R117, R118) -/

/-- A derivation of the claimant: it is the one the rules name, and the switch is made where CHIME is silent. -/
theorem deriveChime_cases (s : State) :
    let t := s.modAo fun a => { a with claimant := s.claimantNow }
    (t.ao.claimant ≠ t.ao.source ∧ t.chimeTone = none ∧ deriveChime s = chimeSwitch 0 t) ∨
    ((t.ao.claimant = t.ao.source ∨ t.chimeTone ≠ none) ∧ deriveChime s = t) := by
  intro t
  by_cases h : t.ao.claimant ≠ t.ao.source ∧ t.chimeTone = none
  · exact .inl ⟨h.1, h.2, if_pos h⟩
  · refine .inr ⟨?_, if_neg h⟩
    by_cases hc : t.ao.claimant = t.ao.source
    · exact .inl hc
    · exact .inr fun hn => h ⟨hc, hn⟩

/-! ## Channels -/

/-- A judgement of the reference changes the non-OFF channels it reaches, by one function, and no other (R58 to R60, R71). -/
theorem Interp.mapWired_get (c : Interp) (on : Fin 24 → Bool) (f : Wired → Wired) (ch : Fin 24) :
    (c.mapWired on f).wired[ch] = if c.wired[ch].cfg.kind = .off ∨ on ch = false then c.wired[ch] else f c.wired[ch] :=
  tab_get _ ch

/-- Everything a switchover can do at a primary (R62): its flag is set and reported, where it is FAULT and its partner VALID;
or nothing. -/
theorem switchPrimary_cases (p : Fin 24) (s : State) :
    (∃ q, s.ci.primaryPartner p = some q ∧ s.ci.wired[p].switched = false ∧ s.ci.wired[p].status = .fault ∧
      s.ci.wired[q].status = .valid ∧
      switchPrimary p s = report .switched p.val (val q.val) (s.modWired p fun w => { w with switched := true })) ∨
    ((∀ q, s.ci.primaryPartner p = some q →
      ¬ (s.ci.wired[p].switched = false ∧ s.ci.wired[p].status = .fault ∧ s.ci.wired[q].status = .valid)) ∧
      switchPrimary p s = s) := by
  unfold switchPrimary
  split
  · rename_i q hq
    split
    · rename_i h
      exact .inl ⟨q, hq, by simpa using h.1, h.2.1, h.2.2, rfl⟩
    · rename_i h
      refine .inr ⟨fun q' hq' h' => h ?_, rfl⟩
      obtain rfl : q = q' := by simpa [hq] using hq'
      exact ⟨by simpa using h'.1, h'.2⟩
  · rename_i hn
    exact .inr ⟨fun q hq => by simp [hn] at hq, rfl⟩

/-- Everything a derivation can do at a gauge (R74): nothing outside RUN and SHUTDOWN or unconfigured; else the derived gauge
with LIMITED where its flag is newly set, handed to the WM where the display value has changed. -/
theorem deriveGauge_cases (g : Fin 8) (s : State) :
    ((s.ge[g].record = none ∨ ¬ s.live) ∧ deriveGauge g s = s) ∨
    ∃ r, s.ge[g].record = some r ∧ s.live ∧
      let y := s.ge[g].derived r s.ci.refFault (s.ci.eff r.source)
      let t := s.modGauge g fun _ => y
      let u := if y.limited && !s.ge[g].limited then report .gaugeLimited g.val (valInt (y.display.getD 0)) t else t
      deriveGauge g s = if y.display ≠ s.ge[g].display then handDisplay g u else u := by
  unfold deriveGauge
  split
  · rename_i r hr
    by_cases hl : s.live
    · exact .inr ⟨r, hr, hl, by simp only [hl, if_true]⟩
    · exact .inl ⟨.inr hl, if_neg hl⟩
  · rename_i hn
    exact .inl ⟨.inl hn, rfl⟩

end Sys2Proof.Machine
end

