-- ==== Sys2Proof/Tests/Slice0.lean ====
section
/-! SUPPORT. The model's own tests: the checks of WellFormed on ill-formed terms, the worked figures of the spec's chapters, one
small step of each command, and for every statement with hypotheses a witness that meets them. Expected values come from the
spec, each test naming its place. -/

namespace Sys2Proof.Tests

set_option Elab.async false

open Sys2Proof.Machine

/-! ## WellFormed -/

/-- A payload of 249 characters is longer than any frame carries. -/
theorem test_wellformed_refuses_a_long_payload : ¬ WellFormed (.setScan 0 (List.replicate 249 0)) := by
  simp only [WellFormed]; decide +kernel

/-- LENGTH 3 with only KIND, TAG and CHECK behind it. -/
theorem test_wellformed_refuses_a_bad_frame : ¬ WellFormed (.frameComplete [3, 1, 0, 0, 0]) := by
  simp only [WellFormed]; decide +kernel

/-- LENGTH below 2, and LENGTH above 250. -/
theorem test_wellformed_refuses_a_bad_length :
    ¬ WellFormed (.frameComplete [1, 1, 0, 0]) ∧ ¬ WellFormed (.frameComplete (251 :: List.replicate 253 0)) := by
  simp only [WellFormed]; decide +kernel

/-- A conversion without bias. -/
theorem test_wellformed_refuses_no_bias : ¬ WellFormed (.conversionComplete 100 0 0) := by
  simp only [WellFormed]; decide +kernel

/-- A confirm timer of sources that have none. -/
theorem test_wellformed_refuses_an_untimed_source :
    ¬ WellFormed (.confirmTimerExpiry (.gauge 0)) ∧ ¬ WellFormed (.confirmTimerExpiry (.system 0)) := by
  simp [WellFormed, timedSource]

theorem test_wellformed_admits : WellFormed (.setScan 0 (List.replicate 248 0)) ∧
    WellFormed (.frameComplete [2, 2, 0x17, 0x48, 0xA6]) ∧ WellFormed (.conversionComplete 100 0 1) ∧
    WellFormed (.confirmTimerExpiry (.system 1)) := by
  refine ⟨?_, ?_, ?_, ?_⟩ <;> simp only [WellFormed] <;> decide +kernel

/-! ## Figures worked in the spec -/

/-- The catalogue value of this CRC for the nine digits. -/
theorem test_crc_of_the_digits : crc16 [0x31, 0x32, 0x33, 0x34, 0x35, 0x36, 0x37, 0x38, 0x39] = 0x29B1 := by
  decide +kernel

/-- Section 4.2: 1,000 Ω, 4,000 against 10,000 and 11,111 at gate code 0, and 4 at gate code 3. -/
theorem test_resistance : resistance 1000 4000 10000 0 = 100 ∧ resistance 1000 4000 11111 0 = 90 ∧
    resistance 1000 4000 4 3 = 2000000 := by decide +kernel

/-- The fuel gauge of section 5.4. -/
def fuelCurve : List CurvePoint := [⟨10, 1000⟩, ⟨50, 750⟩, ⟨90, 500⟩, ⟨135, 250⟩, ⟨180, 0⟩]

def fuelRec : GaugeRec := { source := 5, vMin := 0, vMax := 1000, span := 2880, rest := 0, k := 3, slew := 6, sweep := true }

/-- Section 5.4: 100 Ω shows 444, T is 1,279; below and above the curve the ends show. -/
theorem test_fuel_gauge : curveValue fuelCurve 100 = (444, .none) ∧ fuelRec.dial 444 = 1279 ∧
    curveValue fuelCurve 9 = (1000, .below) ∧ curveValue fuelCurve 181 = (0, .above) := by decide +kernel

/-- Section 5.4: A from 307,200 to 309,728, F 1,210, P from 1,200 to 1,206. -/
theorem test_fuel_pointer : dampAcc 3 307200 1279 = 309728 ∧ filteredOf 309728 = 1210 ∧ slewTo 1200 1210 6 = 1206 := by
  decide +kernel

/-- Section 5.11: the speedometer's 1,240 on a dial of 1,250 and 3,000. -/
theorem test_dial_map : ({ fuelRec with vMax := 1250, span := 3000 } : GaugeRec).dial 1240 = 2976 := by decide +kernel

/-- Section 8.5: the mean 312 after 418, and then after 290. -/
theorem test_closing_mean : meanAfter (some 312) 418 = 325 ∧ meanAfter (some 325) 290 = 321 ∧ meanAfter none 77 = 77 := by
  decide +kernel

/-- The table of R116: the phases at which some envelope sets are on. -/
theorem test_envelopes : (List.range 16).filter (envOn 0b1010) = [0, 2, 8, 10] ∧
    (List.range 16).filter (envOn 0b0101) = [0, 1, 4, 5] ∧ (List.range 16).filter (envOn 0b1111) = [0] ∧
    (List.range 16).filter (envOn 0b0010) = [0, 1, 2, 3, 8, 9, 10, 11] := by decide +kernel

/-- Section 9.6: the victim among the four lowest entries, WARNING/9 being CONFIRMED, is GAUGE/0. -/
def faultEntry (src : FaultSource) (severity : Priority) (occurrence lastSeen : Nat) : FaultEntry :=
  { src, severity, occurrence, firstSeen := 0, lastSeen, firstCycle := 0, lastCycle := 0, frame := [],
    displaces := none, dispPending := false }

theorem test_victim : weakest [faultEntry (.warning 18) .advisory 7 1190050, faultEntry (.warning 20) .advisory 2 1201400,
    faultEntry (.gauge 0) .advisory 2 1150000, faultEntry (.system 1) .caution 1 0] =
    some (faultEntry (.gauge 0) .advisory 2 1150000) := by decide +kernel

/-- Section 9.1: the codes of DOOR/SLOW of leaf 5 and of SYSTEM/1. -/
theorem test_fault_codes : faultCode (.doorSlow 5) = 0x0529 ∧ faultCode (.system 1) = 0x0601 := by decide +kernel

/-- No row of the table gives bits. -/
theorem test_no_word_spells_a_command : decodeTableWord 8 0 = none ∧ State.reset.withFetchWord 8 0 = State.reset :=
  ⟨rfl, rfl⟩

/-! ## Small states -/

/-- What a command leaves. -/
def after (c : Instr) (s : State) : State :=
  match exec c s with
  | .next t => t
  | _ => s

/-- The kind of the reply in progress, and its payload. -/
def replyOf (s : State) : Nat × List Nat :=
  match s.li.transmitter with
  | .idle => (0, [])
  | .answering r => (u8 r 2, ((r.drop 4).take (r.length - 6)).map (·.toNat))

def inState (o : OpState) : State := { State.reset with sc := { Controller.reset with opState := o } }

def cfg : State := inState .config

/-- RUN with nothing configured: every leaf is secure. -/
def run : State := { inState .run with dm := { DoorMon.reset with doorsClear := true } }

/-- RUN in a service session. -/
def session : State := { run with sc := { run.sc with service := true } }

def parked : State := inState .parked

def shutdown : State := inState .shutdown

/-- RUN with one gauge of a record, in a pointer state, ready for an update. -/
def gauging (r : GaugeRec) (f : Gauge → Gauge) : State :=
  { run with ge := run.ge.set 2 (f { Gauge.fresh (some r) [] with updateMs := 20 }) }

/-- A configured switch at W4 under the watch threshold 400. -/
def switchCfg : WiredCfg :=
  { kind := .switch, gate := 0, confirm := 2, thresholds := [400], meanings := [.active, .inactive], watch := true,
    watchThr := 400, partner := none }

/-- A sender at W5 with the band table of section 4.2. -/
def senderCfg : WiredCfg :=
  { kind := .sender, gate := 0, confirm := 1, thresholds := [5, 400], meanings := [.faultShort, .value, .faultOpen],
    watch := false, watchThr := 0, partner := none }

/-- Channels W4 and W5 configured, and N0 for motion, in a state. -/
def withChannels (s : State) : State :=
  { s with ci := { s.ci with
      wired := (s.ci.wired.set 4 (Wired.fresh switchCfg)).set 5 (Wired.fresh senderCfg)
      net := s.ci.net.set 0 (Net.fresh { network := true, min := 0, max := 1500, fresh := 50, lost := 20 })
      motionChannel := some 24, moveThr := 50, stopThr := 10 } }

/-- A conversion whose gate is at its end. -/
def converting (t : Target) (o : Origin) (host : Bool) (s : State) : State :=
  { s with cu := { s.cu with
      inFlight := some { target := t, origin := o, gate := 0, phase := .gate, hostMark := host }
      elapsedQ := 8, path := .ready } }

/-- A leaf with CLOSED at W4, EDGE at N1 and no other input. -/
def leafCfg : LeafCfg :=
  { doorway := 1, inputs := #v[some ⟨4, false⟩, none, none, some ⟨25, true⟩, none], travel := 30, lockTo := 10,
    closing := 40, watched := true }

/-- A leaf with a lock input as well. -/
def lockLeafCfg : LeafCfg := { leafCfg with inputs := #v[some ⟨4, false⟩, some ⟨6, false⟩, none, none, none] }

def withLeaf (c : LeafCfg) (f : Leaf → Leaf) (s : State) : State :=
  { s with dm := { s.dm with leaves := s.dm.leaves.set 3 (f (Leaf.fresh (some c))) } }

/-- A STOP definition with re-alert 20 s, lamp L3 flashing, pattern P1. -/
def stopDef : WarnDef :=
  { cond := .supplyLow, gating := .always, priority := .stop, delay := 5, latching := true, ackable := true,
    faultLink := true, lamp := some 3, style := .flash, env := 0b0010, pattern := some 1, reAlert := 20 }

/-- Warning 7 with that definition in an instance state. -/
def warning (st : WarnState) (f : WarnInst → WarnInst) (s : State) : State :=
  { s with wm := { s.wm with
      defs := s.wm.defs.set 7 (some stopDef)
      inst := s.wm.inst.set 7 (f { WarnInst.rest with state := st, act := some 0 })
      list := if st = .active ∨ st = .acked ∨ st = .retained then [7] else []
      counter := 1
      view := some (.runEntry .normal) } }

/-- Pattern P1 of section 7.4 sounding for warning 7, or for a test. -/
def sounding (source : ChimeSource) (rep phase : Nat) (s : State) : State :=
  { s with ao := { s.ao with
      patterns := s.ao.patterns.set 1 (some { tone := .high, env := 0b1010, rep })
      genRunning := true, genQ := 250, phase, source, claimant := source
      chimeTest := match source with
        | .test p _ => some p
        | _ => none } }

/-- A journal operation in flight at its end. -/
def operating (op : ArrayOp) (s : State) : State :=
  { s with jc := { s.jc with
      inFlight := some op, opMs := 5, nextSector := 2
      sectors := s.jc.sectors.set 0 { header := .sequence 1, slots := [] } } }

/-! ## One step of each command -/

theorem test_hard_reset : (after (.hardReset true) run).sc.opState = .starting ∧
    (after (.hardReset true) run).li.lineRate = .baud460800 := by decide +kernel

def answered : State := { cfg with li := { cfg.li with restartPending := true } }

theorem test_soft_restart : (after (.softRestart false) answered).sc.opState = .starting ∧
    after (.softRestart false) cfg = cfg := by decide +kernel

def rebuilding : State := { State.reset with jc := { Journal.reset with rebuildMs := 0 } }

/-- A blank journal is rebuilt with head S0 and the first sector sequence 1 (R173). -/
theorem test_rebuild_complete : (after .rebuildComplete rebuilding).sc.opState = .config ∧
    (after .rebuildComplete rebuilding).jc.sectors[0].header = .sequence 1 := by decide +kernel

def assembling : State := { run with li := { run.li with receiver := .assembling, buffer := [2, 2], gapMs := 4 } }

theorem test_line_fault : (after .lineFault assembling).li.receiver = .hunting := by decide +kernel

theorem test_frame_gap_timeout : (after .frameGapTimeout assembling).li.buffer = [] := by decide +kernel

/-- The transaction of section 1.8: GET_STATE with TAG 0x17. -/
theorem test_frame_complete : (replyOf (after (.frameComplete [2, 2, 0x17, 0x48, 0xA6]) cfg)).1 = 0x82 := by decide +kernel

theorem test_frame_complete_bad_check : replyOf (after (.frameComplete [2, 2, 0x17, 0x48, 0xA7]) cfg) = (0xFF, [1]) := by
  decide +kernel

theorem test_reply_sent : (after .replySent (after (.getState 0 []) cfg)).li.transmitter = .idle := by decide +kernel

/-- The three highest bits of SYNC, the stop bit, and the start bit of LENGTH, 17; TXD high once the reply is sent (R1). -/
theorem test_txd : (List.range 12).map (after (.getState 0 []) cfg).txd =
    [false, true, true, false, false, false, false, true, true, true, false, true] ∧
    (after .replySent (after (.getState 0 []) cfg)).txd 0 = true := by decide +kernel

theorem test_character_received : (after (.characterReceived 0xC3) run).li.receiver = .assembling := by decide +kernel

theorem test_identify : (replyOf (after (.identify 0 []) State.reset)).1 = 0x81 := by decide +kernel

theorem test_get_state : replyOf (after (.getState 0 []) cfg) =
    (0x82, [1, 0, 0, 0, 0, 0, 0, 0, 0, 0, 0, 0, 0, 0, 0]) := by decide +kernel

def reported : State := report .agedOut 0x0300 (some 0x0601) { run with li := { run.li with tripClock := 0x01020304 } }

/-- A report is 13 bytes (R193). -/
theorem test_fetch_reports : replyOf (after (.fetchReports 0 [1]) reported) =
    (0x83, [1, 0, 0, 0, 4, 3, 2, 1, 6, 5, 0, 3, 1, 1, 6]) := by decide +kernel

theorem test_restart : (after (.restart 0 []) cfg).li.restartPending = true := by decide +kernel

/-- An empty scan list fails check 1 (R18). -/
theorem test_start : replyOf (after (.start 0 []) cfg) = (0xFF, [9, 1, 0]) := by decide +kernel

theorem test_stop : (after (.stop 0 []) (withLeaf leafCfg id (inState .run))).sc.opState = .config ∧
    replyOf (after (.stop 0 []) { run with ci := { run.ci with motion := .moving } }) = (0xFF, [0x0A]) := by decide +kernel

theorem test_set_reference : (after (.setReference 0 [0xE8, 3, 4, 0, 5, 0]) cfg).ci.nRefMax = 5 ∧
    replyOf (after (.setReference 0 [0xE8, 3, 5, 0, 5, 0]) cfg) = (0xFF, [4]) := by decide +kernel

theorem test_set_channel : (after (.setChannel 0 (switchCfg.payload 4)) cfg).ci.wired[4].cfg = switchCfg := by
  decide +kernel

theorem test_set_scan : (after (.setScan 0 [4, 5, 4]) cfg).cu.scan = [4, 5, 4] := by decide +kernel

theorem test_set_motion : (after (.setMotion 0 [24, 50, 10]) cfg).ci.motionChannel = some 24 := by decide +kernel

theorem test_set_gauge : (after (.setGauge 0 (fuelRec.payload 2)) cfg).ge[2].record = some fuelRec := by decide +kernel

theorem test_set_curve : (after (.setCurve 0 (curvePayload 2 fuelCurve)) cfg).ge[2].curve = fuelCurve := by decide +kernel

theorem test_set_warning : (after (.setWarning 0 (stopDef.payload 7)) cfg).wm.defs[7] = some stopDef := by decide +kernel

theorem test_set_lamp : (after (.setLamp 0 [3, 1]) cfg).ao.used[3] = true := by decide +kernel

theorem test_set_pattern : (after (.setPattern 0 [1, 1, 0x0A, 0]) cfg).ao.patterns[1] =
    some { tone := .high, env := 0b1010, rep := 0 } := by decide +kernel

theorem test_set_leaf : (after (.setLeaf 0 (leafCfg.payload (fun _ => 0) 3)) cfg).dm.leaves[3].cfg = some leafCfg ∧
    (after (.setLeaf 0 (leafCfg.payload (fun _ => 0) 3)) cfg).dm.doorway[1] = some .unknown := by decide +kernel

theorem test_set_freeze : (after (.setFreeze 0 [2, 9, 0, 2]) cfg).fm.freeze = [.supply, .gaugeValue 2] := by
  decide +kernel

/-- A value above the maximum is limited to it (R64). -/
theorem test_post_network : (after (.postNetwork 0 [24, 0x40, 0x06]) (withChannels run)).ci.net[0].value = some 1500 := by
  decide +kernel

/-- A leaf whose CLOSED is N1, and a warning of 0.5 s delay on it. -/
def postLeafCfg : LeafCfg := { leafCfg with inputs := #v[some ⟨25, false⟩, none, none, none, none] }

def doorDef : WarnDef := { stopDef with cond := .doorNotSecure 0x08 }

def doored : State :=
  let s := withLeaf postLeafCfg (fun l => { l with state := .closed, readings := l.readings.set 0 .active })
    (warning .inactive id (withChannels run))
  let net1 : Net := { Net.fresh { network := true, min := 0, max := 9, fresh := 50, lost := 20 } with status := .valid, value := some 1 }
  { s with
    ci := { s.ci with net := s.ci.net.set 1 net1 }
    dm := { s.dm with conds := s.dm.conds.set 3 (some s.dm.leaves[3].conds) }
    wm := { s.wm with defs := s.wm.defs.set 7 (some doorDef) } }

/-- CLOSED becomes INACTIVE: OPENING with the travel timer at 3.0 s (R130, R131), and the warning's delay begins (R98). -/
theorem test_post_network_opens_a_leaf :
    let t := after (.postNetwork 0 [25, 0, 0]) doored
    t.dm.leaves[3].state = .opening ∧ t.dm.leaves[3].travelT = some 3000 ∧ t.wm.inst[7].state = .delaying ∧
      t.wm.inst[7].delayT = some 500 := by decide +kernel

theorem test_request_conversion : (after (.requestConversion 0 [5]) (withChannels run)).cu.queue = [⟨5, true⟩] := by
  decide +kernel

theorem test_read_channels : (replyOf (after (.readChannels 0 [38, 2]) run)).2.length = 10 + 2 * 12 := by decide +kernel

theorem test_read_gauges : (replyOf (after (.readGauges 0 [7, 1]) run)).2.length = 1 + 17 := by decide +kernel

theorem test_read_warnings : replyOf (after (.readWarnings 0 [63, 16]) run) = (0xA4, [0, 0, 0]) := by decide +kernel

theorem test_read_doors : (replyOf (after (.readDoors 0 []) run)).2.take 5 = [1, 8, 8, 8, 8] := by decide +kernel

theorem test_read_faults : replyOf (after (.readFaults 0 [31, 4]) cfg) = (0xA6, [0, 0, 0]) := by decide +kernel

theorem test_read_door_stats : replyOf (after (.readDoorStats 0 [7, 1]) cfg) =
    (0xA7, [1, 7, 0, 0, 0, 0, 0, 0, 0, 0, 0, 0, 0]) := by decide +kernel

/-- ACTIVE to ACKED, the re-alert timer at 20 s (R102, R106). -/
theorem test_acknowledge : (after (.acknowledge 0 [7]) (warning .active id run)).wm.inst[7].alertT = some 20000 ∧
    replyOf (after (.acknowledge 0 []) run) = (0xA8, [3, 0xFF, 0]) := by decide +kernel

theorem test_set_chime_floor : (after (.setChimeFloor 0 [3]) run).ao.floorCopy = .stop := by decide +kernel

def limited : State := { run with ci := { run.ci with net := run.ci.net.set 0 { Net.fresh .cleared with limited := true } } }

theorem test_clear_limits : (after (.clearLimits 0 []) limited).ci.net[0].limited = false := by decide +kernel

theorem test_enter_service : (after (.enterService 0 []) run).sc.service = true := by decide +kernel

theorem test_leave_service : (after (.leaveService 0 []) session).sc.service = false := by decide +kernel

def tracking : State := { gauging fuelRec fun x => { x with pointer := .tracking } with sc := session.sc }

theorem test_gauge_test : (after (.gaugeTest 0 [2, 0x40, 0x0B]) tracking).ge[2].testPos = some 2880 ∧
    replyOf (after (.gaugeTest 0 [2, 0x41, 0x0B]) tracking) = (0xFF, [4]) := by decide +kernel

theorem test_lamp_test : (after (.lampTest 0 [0, 0, 0x80, 1]) session).lampLit 23 = true := by decide +kernel

theorem test_chime_test : (after (.chimeTest 0 [1]) (sounding .none 3 0 session)).chimeTone = some .high := by
  decide +kernel

theorem test_end_tests : replyOf (after (.endTests 0 []) session) = (0xB5, [11]) := by decide +kernel

theorem test_read_raw : replyOf (after (.readRaw 0 [5]) session) = (0xB6, [5, 0, 0, 0, 0, 0, 0, 0, 0]) := by decide +kernel

theorem test_clear_faults : (after (.clearFaults 0 []) session).fm.clearPending = true := by decide +kernel

def wornStats : DoorStats := { cycles := 9, obstructions := 1, slow := 57, mean := some 312 }

def worn : State := { session with dm := { session.dm with stats := session.dm.stats.set 2 wornStats } }

theorem test_reset_door_stats : (after (.resetDoorStats 0 [2]) worn).dm.stats[2] = .zero := by decide +kernel

def identity : List Byte := List.replicate 17 0x41

theorem test_write_vehicle_id : (after (.writeVehicleId 0 identity) session).jc.row = .programming := by decide +kernel

theorem test_ign_change : (after (.ignChange true) parked).sc.ignRaw = true := by decide +kernel

def keyOn : State :=
  withLeaf leafCfg id { parked with sc := { parked.sc with ignRaw := true, steadyMs := 50 } }

theorem test_ignition_on_confirmed : (after .ignitionOnConfirmed keyOn).sc.opState = .run ∧
    (after .ignitionOnConfirmed keyOn).ao.bulb = some 3000 := by decide +kernel

def keyOff : State :=
  withLeaf leafCfg id { inState .run with sc := { run.sc with ignOn := true, steadyMs := 500 } }

/-- The CYCLE record is being programmed and the DOOR_STATS record waits (R22). -/
theorem test_ignition_off_confirmed : (after .ignitionOffConfirmed keyOff).sc.opState = .shutdown ∧
    (after .ignitionOffConfirmed keyOff).jc.queue = [.doorStats (Vector.replicate 8 .zero)] := by decide +kernel

theorem test_shutdown_complete : (after .shutdownComplete shutdown).sc.opState = .parked := by decide +kernel

def counting : State := { run with sc := { run.sc with remainderMs := 1000, cycleInterval := 3599, opSeconds := 4294967295 } }

theorem test_operating_second : (after .operatingSecond counting).sc.opSeconds = 4294967295 ∧
    (after .operatingSecond counting).sc.cycleInterval = 0 := by decide +kernel

/-- A powered comparator at W4 BELOW the threshold 400: its window is 375 to 425 Ω (R38). -/
def watching (s : State) : State :=
  { withChannels s with cu := { s.cu with comparator := s.cu.comparator.set 4 .below } }

theorem test_comparator_event : (after (.comparatorEvent 4 425) (watching run)).cu.latch[4] = .armed ∧
    (after (.comparatorEvent 4 426) (watching run)).cu.queue = [⟨4, false⟩] := by decide +kernel

theorem test_comparator_event_wakes : (after (.comparatorEvent 4 426) (watching parked)).sc.watch = .settling ∧
    (after (.comparatorEvent 4 426) (watching parked)).attn = true := by decide +kernel

def settling (s : State) (w : WatchState) : State :=
  { s with sc := { s.sc with watch := w }, cu := { s.cu with path := .settling, settleMs := 20 } }

theorem test_watch_settle_end : (after .watchSettleEnd (settling parked .settling)).sc.watch = .waking := by decide +kernel

theorem test_watch_quiet : (after .watchQuiet (settling parked .draining)).cu.path = .unpowered := by decide +kernel

theorem test_path_ready : ((after .pathReady (settling run .quiet)).cu.inFlight.map (·.gate)) = some 2 := by decide +kernel

def begun : State := after .pathReady (settling run .quiet)

theorem test_gate_open : ((after .gateOpen (after .tripClockTick begun)).cu.inFlight.map (·.phase)) = some .gate := by
  decide +kernel

/-- The sender of section 4.2 reads 100 Ω. -/
def sensing : State :=
  converting (.wired 5) .pass false { withChannels run with ci := { (withChannels run).ci with
    passCount := some 4000, judgement := some .good } }

theorem test_conversion_complete : (after (.conversionComplete 10000 0 5) sensing).ci.wired[5].value = some 100 ∧
    (after (.conversionComplete 10000 0 5) sensing).ci.wired[5].confirmed = some (.band 1) := by decide +kernel

/-- Section 4.4, pass 2: the count 2,610 is FAILED. -/
theorem test_conversion_of_the_reference :
    (after (.conversionComplete 2610 0 5) (converting .reference .pass false run)).ci.failCount = 1 := by decide +kernel

def posted (st : Status) (f : Net → Net) : State :=
  let s := withChannels run
  { s with ci := { s.ci with
      net := s.ci.net.set 0 (f { s.ci.net[0] with status := st, value := some 100 }), motionChannel := none } }

theorem test_freshness_expiry : (after (.freshnessExpiry 0)
    (posted .valid fun n => { n with freshT := some 0 })).ci.net[0].lostT = some 2000 := by decide +kernel

theorem test_lost_timer_expiry : (after (.lostTimerExpiry 0)
    (posted .held fun n => { n with lostT := some 0 })).fm.present (.netlost 0) = true := by decide +kernel

theorem test_initial_timer_expiry : (after (.initialTimerExpiry 0)
    (posted .init fun n => { n with initT := some 0 })).ci.net[0].status = .lost := by decide +kernel

def stopping : State := { run with ci := { run.ci with motion := .moving, standstillT := some 0 } }

theorem test_standstill_timer_expiry : (after .standstillTimerExpiry stopping).ci.motion = .standstill := by decide +kernel

/-- The update of section 5.4. -/
theorem test_gauge_update : (after (.gaugeUpdate 2) (gauging fuelRec fun x =>
    { x with pointer := .tracking, target := 1279, acc := 307200, pos := 1200 })).ge[2].pos = 1206 := by decide +kernel

/-- The first homing update of section 5.6. -/
theorem test_gauge_update_homing : (after (.gaugeUpdate 2) (gauging fuelRec fun x =>
    { x with pointer := .homing, homingPhase := .countdown, pos := 2880 })).ge[2].pos = 2864 := by decide +kernel

theorem test_delay_expiry : (after (.delayExpiry 7)
    (warning .delaying (fun i => { i with delayT := some 0 }) run)).wm.list = [7] := by decide +kernel

theorem test_re_alert : (after (.reAlert 7)
    (warning .acked (fun i => { i with alertT := some 0 }) run)).wm.inst[7].act = some 1 := by decide +kernel

/-- Section 7.4: at phase 8 the period of P1 is complete. -/
theorem test_envelope_step : (after .envelopeStep (sounding (.owner 7 0) 0 7
    (warning .active id run))).ao.burst = 1 := by decide +kernel

theorem test_bulb_check_end : (after .bulbCheckEnd { run with ao := { run.ao with bulb := some 0 } }).ao.bulb = none := by
  decide +kernel

theorem test_travel_timer_expiry : (after (.travelTimerExpiry 3) (withLeaf leafCfg
    (fun l => { l with state := .opening, travelT := some 0 }) shutdown)).dm.leaves[3].state = .opened := by decide +kernel

theorem test_lock_timer_expiry : (after (.lockTimerExpiry 3) (withLeaf lockLeafCfg
    (fun l => { l with state := .closed, lockT := some 0 }) shutdown)).dm.leaves[3].lockFault = true := by decide +kernel

def pendingFault (s : State) : State :=
  { s with fm := { s.fm with
      presence := s.fm.presence.set (sourceIndex (.system 1)) true
      trackers := s.fm.trackers.set (sourceIndex (.system 1)) { state := .pending, timer := some 0 } } }

theorem test_confirm_timer_expiry : ((after (.confirmTimerExpiry (.system 1)) (pendingFault run)).fm.index.map (·.src)) =
    [.system 1] := by decide +kernel

def aRecord : Machine.Record := { seq := 4, content := .clearMark }

theorem test_record_program_complete : (after .recordProgramComplete
    (operating (.program aRecord) run)).jc.sectors[0].slots = [.record aRecord] := by decide +kernel

theorem test_header_program_complete : (after .headerProgramComplete
    (operating (.header 1) run)).jc.head = 1 := by decide +kernel

def erasing : State :=
  let s := operating .erase run
  { s with jc := { s.jc with
      reclaim := .erasing 1 120, sectors := s.jc.sectors.set 1 { header := .unreadable, slots := [.void] } } }

theorem test_erase_complete : (after .eraseComplete erasing).jc.sectors[1] = .erased := by decide +kernel

theorem test_row_program_complete : (after .rowProgramComplete
    (operating (.row 4 identity) run)).li.vehicleId = some identity := by decide +kernel

theorem test_trip_clock_tick : (after .tripClockTick
    { run with li := { run.li with tripClock := 0xFFFFFFFF } }).li.tripClock = 0 := by decide +kernel

/-! ## Witnesses: states and operands that meet the hypotheses of the statements

Named after the statement; a statement of several clauses has its clauses' boundary values side by side. -/

theorem witness_StepRunsTheFrontCommand : State.reset.pending = [] := rfl

theorem witness_ResetsEmptyConversionWarningsAndAlerts :
    answered.li.restartPending = true ∧ answered.li.transmitter = .idle := ⟨rfl, rfl⟩

def busy : State := { run with pending := [.tripClockTick] }

/-- A sound state that steps: for all the invariants. -/
theorem witness_StepsKeep : busy.Sound ∧ ∃ t, step busy = .next t := by
  refine ⟨⟨?_, ?_, ?_, ?_, ?_, ?_, ?_, ?_, ?_, ?_, ?_⟩, _, rfl⟩
  · simp only [Link.sound]; decide +kernel
  · simp only [State.doorsSound]; decide +kernel
  · refine ⟨fun g => ?_, fun h => absurd (Or.inl rfl) h⟩
    have h : ∀ g : Fin 8, busy.ge[g] = Gauge.fresh none [] := by decide +kernel
    rw [h g]; rfl
  · simp only [ConvUnit.sound]; decide +kernel
  · simp only [Interp.sound, Wired.sound, Net.sound]; decide +kernel
  · refine ⟨?_, ?_, ?_, ?_, fun h => absurd rfl h⟩
    · exact List.nodup_nil
    · decide +kernel
    · exact List.Pairwise.nil
    · decide +kernel
  · simp only [State.outputsSound]; decide +kernel
  · simp only [FaultMem.sound]; decide +kernel
  · simp only [State.indexYoung]; decide +kernel
  · simp only [Journal.sound]; decide +kernel
  · simp only [State.clearSound]; decide +kernel

/-- The longest and the shortest payload and frame. -/
theorem witness_FramesRunTheRequestOfTheirKind :
    (Instr.identify 5 []).asRequest = some (0x01, 5, []) ∧ ([] : List Byte).length ≤ 248 ∧
    (Instr.writeVehicleId 5 (List.replicate 248 0)).asRequest = some (0x39, 5, List.replicate 248 0) ∧
    (List.replicate 248 (0 : Byte)).length ≤ 248 ∧ run.li.receiver = .hunting ∧ frameFits [2, 2, 0x17, 0x48, 0xA6] ∧
    frameFits (250 :: List.replicate 252 0) := by decide +kernel

def partway (gap : Nat) (buffer : List Byte) : State :=
  { run with li := { run.li with receiver := .assembling, buffer, gapMs := gap } }

/-- Gaps of 3 and 4 ms, LENGTH 1, 2, 250 and 251, and the last and last but one character of a frame. -/
theorem witness_LineEventsFollowTheReceiver :
    run.li.receiver = .hunting ∧ (0xC3 : Byte) ≠ 0xC2 ∧ (partway 4 []).li.receiver = .assembling ∧
    3 < (partway 4 []).li.gapMs ∧ (partway 3 []).li.gapMs ≤ 3 ∧ (partway 3 []).li.buffer = [] ∧
    ((1 : Byte).toNat < 2 ∨ 250 < (1 : Byte).toNat) ∧ ((251 : Byte).toNat < 2 ∨ 250 < (251 : Byte).toNat) ∧
    2 ≤ (2 : Byte).toNat ∧ (250 : Byte).toNat ≤ 250 ∧ (partway 3 [2, 2, 0x17]).li.buffer = 2 :: [2, 0x17] ∧
    [2, 0x17].length + 1 < (2 : Byte).toNat + 2 ∧ (partway 3 [2, 2, 0x17, 0x48]).li.buffer = 2 :: [2, 0x17, 0x48] ∧
    [2, 0x17, 0x48].length + 1 = (2 : Byte).toNat + 2 ∧ run.li.transmitter = .idle ∧
    ({ run with li := { run.li with transmitter := .answering [0xC3] } } : State).li.transmitter = .answering [0xC3] ∧
    ([0xC3] : List Byte)[0]? = some 0xC3 ∧ 10 * ([0xC3] : List Byte).length ≤ 10 := by decide +kernel

def answering : State := after (.getState 0 []) run

/-- Every clause on the frame and on the request of one kind: discarded, bad check, unknown kind; wrong length, state and
mode. -/
theorem witness_FramesAndRequestsAreCheckedInOrder :
    ¬ answering.taking ∧ run.taking ∧ (2 : Byte).toNat = ([] : List Byte).length + 2 ∧
    (250 : Byte).toNat = (List.replicate 248 (0 : Byte)).length + 2 ∧
    ¬ ((0x48 : Byte).toNat + 256 * (0xA7 : Byte).toNat = (crc16 (2 :: 2 :: 0x17 :: [])).toNat) ∧
    (0xF2 : Byte).toNat + 256 * (0xE7 : Byte).toNat = (crc16 (2 :: 0x3F :: 5 :: [])).toNat ∧
    (0x3F : Byte).toNat ∉ requestKinds ∧ (Instr.readRaw 5 [1, 2]).asRequest = some (0x36, 5, [1, 2]) ∧
    ¬ acceptsLength 0x36 [1, 2].length ∧ acceptsLength 0x36 [1].length ∧ parked.taking ∧
    parked.sc.opState ∉ acceptedIn 0x36 ∧ run.sc.opState ∈ acceptedIn 0x36 ∧ serviceOnly 0x36 ∧
    run.sc.service = false := by
  simp only [acceptsLength, serviceOnly]; decide +kernel

theorem witness_EveryTakenRequestIsAnsweredOnce : (Instr.identify 5 []).asRequest = some (0x01, 5, []) ∧ run.taking := by
  decide +kernel

/-- The least and the greatest max, with one report and with none. -/
theorem witness_FetchReportsRemovesTheOldest :
    reported.taking ∧ reported.sc.opState ≠ .starting ∧ 1 ≤ (1 : Byte).toNat ∧ (12 : Byte).toNat ≤ 12 ∧
    reported.li.reports.length ≤ 64 ∧ reported.li.reports = reported.li.reports ++ [] ∧
    reported.li.reports.length = min (1 : Byte).toNat reported.li.reports.length ∧
    run.li.reports = [] ++ [] ∧ ([] : List Report).length = min (12 : Byte).toNat run.li.reports.length ∧
    (0 : Byte).toNat = 0 ∧ 12 < (13 : Byte).toNat := by decide +kernel

theorem witness_AttnFollowsTheQueueAndTheWake :
    reported.taking ∧ reported.sc.opState ≠ .starting ∧ 1 ≤ (1 : Byte).toNat ∧ (1 : Byte).toNat ≤ 12 ∧
    reported.li.reports.length ≤ (1 : Byte).toNat ∧
    ¬ (reported.sc.opState = .parked ∧ reported.sc.watch ≠ .quiet) ∧
    ∃ t, exec (.fetchReports 0 [1]) reported = .next t := ⟨by decide +kernel, by decide +kernel, by decide +kernel,
  by decide +kernel, by decide +kernel, by decide +kernel, _, rfl⟩

/-- The last items, and one item too many. -/
theorem witness_RangeReadoutsCarryTheirItems :
    run.taking ∧ run.sc.opState = .run ∧ (28 : Byte).toNat + (12 : Byte).toNat ≤ 40 ∧
    40 < (29 : Byte).toNat + (12 : Byte).toNat ∧ 12 < (13 : Byte).toNat ∧ 1 ≤ (8 : Byte).toNat ∧
    (0 : Byte).toNat + (8 : Byte).toNat ≤ 8 ∧ 8 < (1 : Byte).toNat + (8 : Byte).toNat ∧ cfg.taking ∧
    cfg.sc.opState = .config := by decide +kernel

/-- Section 12.6 by hand: a sender FAULT/OPEN with BAND(2) and 100 Ω kept, the fuel gauge in HOLD, a fault entry with two
freeze items, a leaf OPENING and one unconfigured. -/
theorem test_readout_entries :
    let w : Wired := { Wired.fresh senderCfg with confirmed := some (.band 2), wiring := .openLoop, status := .fault,
                                                  value := some 300, limited := true }
    let c : Interp := { run.ci with wired := run.ci.wired.set 5 w }
    let s := gauging fuelRec fun x => { x with pointer := .hold, resume := some .test, display := some (-2), target := 258,
                                               testPos := some 3, restarts := 9 }
    let e : FaultEntry := { faultEntry (.gauge 3) .advisory 2 1150000 with
      displaces := some (.system 1), frame := [⟨.channelValue 39, some (-1)⟩, ⟨.speed, none⟩] }
    let l : Leaf := { Leaf.fresh (some leafCfg) with state := .opening, travelT := some 5, cycleMark := true }
    (c.entry 5).map (·.toNat) = [5, 2, 4, 2, 2, 44, 1, 0, 0, 0xFF, 4, 5] ∧
    (s.gaugeEntry 2).map (·.toNat) = [2, 7, 4, 5, 0xFE, 0xFF, 0, 0, 2, 1, 0, 0, 0, 0, 3, 0, 9] ∧
    (run.faultBytes e).map (·.toNat) = [3, 3, 1, 2, 0, 0, 0, 0, 0x30, 0x8C, 0x11, 0, 0, 0, 0, 0, 1, 6, 0, 1, 2,
      1, 39, 1, 0xFF, 0xFF, 0xFF, 0xFF, 3, 0, 0, 0, 0, 0, 0] ∧
    (l.entry 6).map (·.toNat) = [6, 0b11001, 1, 2, 2, 3, 3, 2, 3, 0, 0, 1] ∧
    (Leaf.fresh none).entry 7 = 7 :: List.replicate 11 0 := by decide +kernel

/-- The list of one entry from its head, and from a position beyond its end; its entry, and one of the index. -/
theorem witness_ListReadoutsCarryTheirEntries :
    let s := warning .active id run
    s.taking ∧ s.sc.opState = .run ∧ s.wm.list = [] ++ [7] ++ [] ∧ ([] : List (Fin 64)).length = (0 : Byte).toNat ∧
    ([7] : List (Fin 64)).length < (16 : Byte).toNat ∧ s.wm.list = [7] ++ [] ++ [] ∧
    ([7] : List (Fin 64)).length < (63 : Byte).toNat ∧ 64 ≤ (64 : Byte).toNat ∧ 16 < (17 : Byte).toNat ∧
    s.wm.defs[7] = some stopDef ∧ s.wm.inst[7].act = some 0 ∧
    cfg.taking ∧ cfg.fm.index = [] ++ [] ++ [] ∧ (31 : Byte).toNat < 32 ∧ (4 : Byte).toNat ≤ 4 ∧ 32 ≤ (32 : Byte).toNat ∧
    4 < (5 : Byte).toNat := by decide +kernel

def measured : State := after (.conversionComplete 10000 0 5) sensing

theorem witness_SnapshotsAreAnsweredAndChangeNothing :
    run.taking ∧ run.sc.opState = .run ∧ session.taking ∧ session.sc.opState = .run ∧ session.sc.service = true ∧
    session.cu.lastResult[5] = none ∧ measured.cu.lastResult[5] =
      some { target := .wired 5, count := 10000, saturated := false, level := .low, gate := 0, origin := .pass } ∧
    run.dm.leaves[0].cfg = none ∧ (withLeaf leafCfg id run).dm.leaves[3].cfg = some leafCfg ∧
    24 ≤ (24 : Byte).toNat := by decide +kernel

/-- The switch with one threshold, and a sender with five of 200,000 and confirm count 7. -/
theorem witness_SetChannelStoresAWiredConfiguration :
    cfg.taking ∧ cfg.sc.opState = .config ∧ cfg.fm.present (.wiring 4) = false ∧ switchCfg.admitted 4 ∧
    ({ senderCfg with confirm := 7, thresholds := List.replicate 5 200000, meanings := List.replicate 6 .value,
                      partner := some 22 } : WiredCfg).admitted 23 ∧
    (List.replicate 35 (0 : Byte)).length ≤ 35 ∧ 3 ≤ (3 : Byte).toNat := by
  simp only [WiredCfg.admitted]; decide +kernel

/-- A band table that fills its payload, with gate code 9, and a payload too short by a character. -/
theorem witness_SetChannelRefusesAWiredConfiguration :
    let rest : List Byte := [9, 1, 0, 0, 0, 0, 0, 0xFF, 0, 1]
    rest.length ≤ 35 ∧ (rest[8]? = some (BitVec.ofNat 8 0) ∧ rest.length = 10 + 5 * 0) ∧
    (∀ c : WiredCfg, c.admitted 4 → b1 4 ++ [1] ++ rest ≠ c.payload 4) ∧
    ¬ ∃ n : Nat, n ≤ 5 ∧ (rest.drop 1)[8]? = some (BitVec.ofNat 8 n) ∧ (rest.drop 1).length = 10 + 5 * n := by
  refine ⟨by decide, by decide, fun c _ h => ?_, ?_⟩
  · have h := congrArg (u8 · 2) h
    have h1 : u8 (c.payload 4) 2 = c.gate.val := by
      simp only [WiredCfg.payload, b1, u8]; simp [Nat.mod_eq_of_lt (show c.gate.val < 256 by omega)]
    have h2 : u8 (b1 4 ++ [1] ++ [9, 1, 0, 0, 0, 0, 0, 0xFF, 0, 1]) 2 = 9 := by decide
    have := c.gate.isLt
    simp only [h1, h2] at h; omega
  · rintro ⟨n, -, -, h⟩; simp at h; omega

theorem witness_SetChannelStoresANetworkConfiguration :
    cfg.taking ∧ cfg.sc.opState = .config ∧ cfg.fm.present (.netlost 15) = false ∧
    ({ network := true, min := -32768, max := -32768, fresh := 5, lost := 1 } : NetCfg).admitted ∧
    ({ network := true, min := 32767, max := 32767, fresh := 255, lost := 255 } : NetCfg).admitted ∧
    (2 : Byte) ≠ 0 ∧ (2 : Byte) ≠ 3 ∧ (List.replicate 5 (0 : Byte)).length ≠ 6 ∧
    isS16 0 ∧ ¬ ((0 : Int) ≤ 0 ∧ 5 ≤ 4 ∧ 1 ≤ 1) ∧ ¬ ((1 : Int) ≤ 0 ∧ 5 ≤ 5 ∧ 1 ≤ 1) ∧ 40 ≤ (40 : Byte).toNat ∧
    1 ≤ [(0 : Byte)].length := by
  simp only [NetCfg.admitted]; decide +kernel

theorem witness_SetGaugeAndSetCurveStoreTheGauge :
    cfg.taking ∧ cfg.sc.opState = .config ∧ fuelRec.admitted ∧
    ({ fuelRec with vMin := 32767, vMax := -32768, span := 100, rest := 4000, k := 7, slew := 255 } : GaugeRec).admitted ∧
    ({ fuelRec with span := 4000, k := 0, slew := 1 } : GaugeRec).admitted ∧ curveAdmitted [] ∧
    curveAdmitted (List.replicate 12 ⟨200000, -32768⟩) ∧ curveAdmitted [⟨-32768, 32767⟩, ⟨-32768, 0⟩] ∧
    ([⟨200001, 0⟩, ⟨0, 0⟩] : List CurvePoint).length ≠ 1 ∧
    (∀ q ∈ ([⟨200001, 0⟩, ⟨0, 0⟩] : List CurvePoint), -(2 ^ 31) ≤ q.x ∧ q.x < 2 ^ 31) ∧
    (∃ q ∈ ([⟨200001, 0⟩, ⟨0, 0⟩] : List CurvePoint), q.x < -32768 ∨ 200000 < q.x) ∧ 8 ≤ (8 : Byte).toNat := by
  simp only [GaugeRec.admitted, curveAdmitted]; decide +kernel

/-- The first character of the payload of a gauge, a warning and a leaf is its number. -/
theorem witness_payloads_not_carried :
    (∀ (g : Fin 8) (r : GaugeRec), r.admitted → 8 :: List.replicate 12 (0 : Byte) ≠ r.payload g) ∧
    (∀ (other : Fin 5 → Byte) (j : Fin 8) (c : LeafCfg), c.admitted → 8 :: List.replicate 15 (0 : Byte) ≠ c.payload other j) ∧
    (∀ d : WarnDef, d.admitted → b1 7 ++ [9] ++ 3 :: List.replicate 9 (0 : Byte) ≠ d.payload 7) ∧
    acceptsLength 0x15 (([] : List Byte).length + 1) ∧ acceptsLength 0x16 ((3 :: List.replicate 9 (0 : Byte)).length + 2) ∧
    acceptsLength 0x16 (([] : List Byte).length + 1) ∧ 64 ≤ (64 : Byte).toNat ∧ 12 ≤ (12 : Byte).toNat := by
  refine ⟨fun g r _ h => ?_, fun o j c _ h => ?_, fun d _ h => ?_, .inl rfl, ?_, ?_, by decide, by decide⟩
  · have h := congrArg (u8 · 0) h
    have := g.isLt
    simp [u8, GaugeRec.payload, b1] at h; omega
  · have h := congrArg (u8 · 0) h
    have := j.isLt
    simp [u8, LeafCfg.payload, b1] at h; omega
  · obtain ⟨cond, gating⟩ := d
    cases cond <;> simp [WarnDef.payload, Condition.bytes, b1] at h
    cases gating <;> simp [Gating.code] at h
  · simp only [acceptsLength]; decide
  · simp only [acceptsLength]; decide

/-- Admitted definitions with the re-alert times 0, 10 and 600, a threshold at the end of its range and a leaf set of one. -/
theorem witness_SetWarningStoresTheDefinition :
    cfg.taking ∧ cfg.sc.opState = .config ∧ stopDef.admitted ∧
    ({ stopDef with cond := .valueBelow 7 (-32768) 32767, reAlert := 0, delay := 255 } : WarnDef).admitted ∧
    ({ stopDef with cond := .doorFault 0x80, reAlert := 10 } : WarnDef).admitted ∧
    ({ stopDef with cond := .channelLost 39, reAlert := 600, lamp := none } : WarnDef).admitted := by
  simp only [WarnDef.admitted, stopDef, Condition.admitted]; decide +kernel

/-- The bounds of the three values, of the motion thresholds, and of lamps and patterns, on both sides. -/
theorem witness_SmallSettingsAreStored :
    cfg.taking ∧ cfg.sc.opState = .config ∧ (500 ≤ 500 ∧ 500 ≤ 5000 ∧ 4 ≤ 4 ∧ 4 < 5 ∧ 5 ≤ 65534) ∧
    (500 ≤ 5000 ∧ 5000 ≤ 5000 ∧ 4 ≤ 65533 ∧ 65533 < 65534 ∧ 65534 ≤ 65534) ∧
    ¬ (500 ≤ 500 ∧ 500 ≤ 5000 ∧ 4 ≤ 4 ∧ 4 < 4 ∧ 4 ≤ 65534) ∧ (39 : Byte).toNat < 40 ∧ 5 ≤ (5 : Byte).toNat ∧
    (100 : Byte).toNat ≤ 100 ∧ (99 : Byte).toNat ≤ 99 ∧ 40 ≤ (40 : Byte).toNat ∧ (4 : Byte).toNat < 5 ∧
    100 < (101 : Byte).toNat ∧ 99 < (100 : Byte).toNat ∧ 24 ≤ (24 : Byte).toNat ∧ 2 ≤ (2 : Byte).toNat ∧ 15 ≤ 15 ∧
    8 ≤ (8 : Byte).toNat ∧ 16 ≤ (16 : Byte).toNat := by decide +kernel

theorem witness_SetLeafStoresTheConfiguration :
    cfg.taking ∧ cfg.sc.opState = .config ∧ leafCfg.admitted ∧
    ({ lockLeafCfg with travel := 5, lockTo := 1, closing := 5 } : LeafCfg).admitted ∧
    ({ lockLeafCfg with travel := 100, lockTo := 50, closing := 150 } : LeafCfg).admitted := by
  simp only [LeafCfg.admitted]; decide +kernel

theorem witness_SetScanAndSetFreezeReplaceTheirList :
    cfg.taking ∧ cfg.sc.opState = .config ∧ (List.replicate 40 (23 : Fin 24)).length ≤ 40 ∧
    (List.replicate 40 (24 : Byte)).length ≤ 40 ∧ (∃ b ∈ [(24 : Byte)], 24 ≤ b.toNat) ∧
    [Selector.supply, .speed, .doorWord, .gaugeValue 7].length ≤ 4 ∧ [Selector.channelValue 39].length ≤ 3 ∧
    5 ≤ (5 : Byte).toNat ∧ ((0 : Byte) = 0 ∧ 8 ≤ (8 : Byte).toNat) ∧ ((1 : Byte) = 1 ∧ 40 ≤ (40 : Byte).toNat) := by
  decide +kernel

theorem witness_PostNetworkAppliesTheLastValues :
    let ps : List (Byte × Int) := List.replicate 15 (24, 32767) ++ [(24, -32768)]
    (withChannels run).taking ∧ (withChannels run).sc.opState = .run ∧ 1 ≤ ps.length ∧ ps.length ≤ 16 ∧
      ∀ q ∈ ps, isS16 q.2 := by decide +kernel

/-- A leaf that is handed its CLOSED channel, and a warning that reads that leaf alone. -/
theorem witness_PostNetworkHandsTheChangeOver :
    let t := after (.postNetwork 0 (postPayload [(25, 0)])) doored
    doored.taking ∧ doored.sc.opState = .run ∧ doored.dm.leaves[3].cfg = some postLeafCfg ∧
    doored.leafHanded t postLeafCfg ∧ doored.wm.defs[7] = some doorDef ∧ doored.wm.view = some (.runEntry .normal) ∧
    doored.readsOneThing doorDef.cond ∧ (doored.condTakes t doorDef.cond false).isSome ∧ doorDef.gating = .always ∧
    doored.wm.defs[8] = none := by
  refine ⟨by decide +kernel, rfl, by decide +kernel, ⟨0, ⟨25, false⟩, rfl, by decide +kernel⟩, by decide +kernel, rfl,
    ⟨3, rfl, by decide +kernel⟩, by decide +kernel, rfl, by decide +kernel⟩

/-- The road speed on N0 VALID at a value, the motion state and its timer as given; no leaf, warning or gauge. -/
def rolling (x : Int) (m : MotionState) (timer : Option Nat) (s : State) : State :=
  let s := withChannels s
  { s with ci := { s.ci with
      net := s.ci.net.set 0 { s.ci.net[0] with status := .valid, value := some x }, motion := m, standstillT := timer } }

/-- The rows of R67: 49 and 50 at the move threshold 50, 9 and 10 at the stop threshold 10, and a value repeated. -/
theorem test_motion_rows :
    let post (n : Byte) (m : MotionState) (timer : Option Nat) : Interp :=
      (after (.postNetwork 0 [24, n, 0]) (rolling 0 m timer run)).ci
    (post 50 .standstill none).motion = .moving ∧ (post 49 .standstill none).motion = .standstill ∧
    (post 10 .unknown (some 7)).motion = .moving ∧ (post 10 .moving (some 7)).standstillT = none ∧
    (post 9 .unknown none).motion = .unknown ∧ (post 9 .moving none).standstillT = some 1000 ∧
    (post 9 .moving (some 7)).standstillT = some 7 ∧ (post 0 .moving none).standstillT = none := by decide +kernel

/-- Every row of R67 for a VALID channel has a state and a post that meet it; the last repeats the value. -/
theorem witness_PostNetworkMovesTheMotion :
    let s := rolling 0 .moving none run
    let t (n : Byte) := after (.postNetwork 0 [24, n, 0]) s
    s.taking ∧ s.sc.opState = .run ∧ s.ci.motionChannel = some (netCh 0) ∧ (t 50).ci.net[0].value = some 50 ∧
    (s.ci.moveThr : Int) ≤ 50 ∧ (49 : Int) < s.ci.moveThr ∧ (s.ci.stopThr : Int) ≤ 10 ∧ (9 : Int) < s.ci.stopThr ∧
    (t 9).ci.net[0].value = some 9 ∧ (t 0).ci.net[0].value = s.ci.net[0].value ∧
    (t 0).ci.net[0].status = s.ci.net[0].status ∧ (∀ n : Fin 16, run.ci.motionChannel ≠ some (netCh n)) := by decide +kernel

/-- A session at STANDSTILL that a post of 50 ends, with a test in force (R182): the motion state leaves STANDSTILL, whatever
the order of the WM and the SC. -/
theorem witness_MotionEndsTheSession :
    let r := rolling 0 .standstill none session
    let s : State := { r with ao := { r.ao with overrides := r.ao.overrides.set 23 (some false) } }
    s.taking ∧ s.sc.opState = .run ∧ s.sc.service = true ∧ s.testsInForce = true ∧ s.ci.motion = .standstill ∧
    (after (.postNetwork 0 (postPayload [(24, 50)])) s).ci.motion = .moving := by
  refine ⟨by decide +kernel, rfl, rfl, by decide +kernel, rfl, ?_⟩
  exact (congrArg Interp.motion (Only.ci (handChannels_only _ _ _ _ _ fun u hu t => by
    simp only [List.mem_cons, Prod.mk.injEq, List.not_mem_nil, or_false] at hu
    obtain ⟨-, rfl⟩ := hu
    exact handMotion_only _))).trans (by decide +kernel)

/-- The fuel gauge on N0 in TRACKING, with a curve. -/
def showing (curve : List CurvePoint) (x : Int) : State :=
  let s := rolling x .standstill none run
  { s with ge := s.ge.set 2 { Gauge.fresh (some { fuelRec with source := 24, vMin := 10, vMax := 20 }) curve with
      pointer := .tracking } }

/-- A value above the dial sets the limited flag (R76); one below the curve shows its first point (R75). -/
theorem test_gauge_takes_a_post :
    let t := after (.postNetwork 0 [24, 21, 0]) (showing [] 0)
    let u := after (.postNetwork 0 [24, 4, 0]) (showing [⟨5, 15⟩, ⟨9, 18⟩] 0)
    t.ge[2].display = some 21 ∧ t.ge[2].target = 2880 ∧ t.ge[2].limited = true ∧ u.ge[2].display = some 15 ∧
    u.ge[2].range = .below ∧ u.ge[2].target = 1440 := by decide +kernel

/-- A gauge handed a VALID value, inside and outside its dial, below, on and above its curve, and one that is not handed. -/
theorem witness_GaugesTakeTheChange :
    let c : List CurvePoint := [⟨5, 15⟩, ⟨9, 18⟩]
    let s := showing c 0
    let t := after (.postNetwork 0 (postPayload [(24, 6)])) s
    s.taking ∧ s.ge[2].record = some { fuelRec with source := 24, vMin := 10, vMax := 20 } ∧ s.ci.eff 24 ≠ t.ci.eff 24 ∧
    t.ci.refFault = false ∧ (t.ci.eff 24).status = .valid ∧ (t.ci.eff 24).value = some 6 ∧
    s.ge[2].curve.Pairwise (fun a b => a.x < b.x) ∧ c = [] ++ ⟨5, 15⟩ :: ⟨9, 18⟩ :: [] ∧ (5 : Int) ≤ 6 ∧ (6 : Int) < 9 ∧
    c.head? = some ⟨5, 15⟩ ∧ (4 : Int) < 5 ∧ c.getLast? = some ⟨9, 18⟩ ∧ (9 : Int) < 10 ∧ s.ge[2].limited = false ∧
    (21 : Int) > 20 ∧ (showing [] 0).ge[2].curve = [] ∧ s.ge[3].record = none ∧
    (after (.postNetwork 0 (postPayload [(24, 0)])) s).ci.eff 24 = s.ci.eff 24 := by decide +kernel

def queued : State := { withChannels run with cu := { run.cu with queue := [⟨4, false⟩, ⟨5, false⟩] } }

theorem witness_RequestConversionQueuesTheChannel :
    (withChannels run).taking ∧ (withChannels run).sc.opState = .run ∧ (withChannels run).ci.wired[5].cfg.kind ≠ .off ∧
    (∀ e ∈ (withChannels run).cu.queue, e.ch ≠ 5) ∧ queued.taking ∧ queued.sc.opState = .run ∧
    queued.ci.wired[5].cfg.kind ≠ .off ∧ queued.cu.queue = [⟨4, false⟩] ++ ⟨5, false⟩ :: [] ∧
    (∀ x ∈ [(⟨4, false⟩ : PrioEntry)] ++ [], x.ch ≠ 5) ∧ run.ci.wired[23].cfg.kind = .off ∧ 24 ≤ (24 : Byte).toNat := by
  decide +kernel

/-- The instance in each state that the table of R106 names, and the candidate of a list. -/
theorem witness_AcknowledgementsFollowTheTable :
    (warning .active id run).taking ∧ (warning .active id run).sc.opState = .run ∧
    (warning .active id run).wm.defs[7] = some stopDef ∧ (warning .active id run).wm.inst[7].state = .active ∧
    stopDef.ackable = true ∧ (warning .retained id run).wm.inst[7].state = .retained ∧
    (warning .acked (fun i => { i with alertT := some 1 }) run).wm.inst[7].state = .acked ∧
    (warning .acked (fun i => { i with alertT := some 1 }) run).wm.inst[7].alertT.isSome ∧
    (warning .acked id run).wm.inst[7].alertT = none ∧ (warning .delaying id run).wm.inst[7].state = .delaying ∧
    run.wm.defs[63] = none ∧ 64 ≤ (64 : Byte).toNat ∧ (warning .active id run).wm.list = [] ++ 7 :: [] ∧
    run.wm.list = [] := by decide +kernel

theorem witness_FloorAndLimitsAreSetInRun :
    run.taking ∧ run.sc.opState = .run ∧ 4 ≤ (4 : Byte).toNat ∧ run.ao.source = .none ∧
    (sounding (.owner 7 0) 0 0 (warning .active id run)).chimeTone ≠ none ∧
    (sounding (.owner 7 0) 0 1 (warning .active id run)).chimeTone = none := by decide +kernel

/-- Nothing is configured: check 1 fails, with item 0, before every other. -/
theorem witness_StartNamesTheFirstFailingItem :
    cfg.taking ∧ cfg.sc.opState = .config ∧ cfg.startFails 1 0 ∧
    ∀ k n, cfg.startFails k n → 1 < k ∨ (1 = k ∧ 0 ≤ n) := by
  refine ⟨by decide +kernel, rfl, ⟨rfl, rfl⟩, fun k n h => ?_⟩
  rcases k with _ | _ | k
  · exact absurd h id
  · exact .inr ⟨rfl, Nat.zero_le n⟩
  · exact .inl (by omega)

/-- A configuration that passes START: two wired channels in the scan list and N0 for motion. -/
def startableCfg : State := { withChannels cfg with cu := { cfg.cu with scan := [4, 5] } }

theorem startableCfg_startable : startableCfg.startable := by
  intro k n h
  match k with
  | 0 => exact h
  | 1 => revert h; exact fun h => absurd h.2 (by decide +kernel)
  | 2 =>
    obtain ⟨ch, h1, h2⟩ := h
    have : ∀ ch : Fin 24, ch ∈ startableCfg.cu.scan → startableCfg.ci.wired[ch].cfg.kind ≠ .off := by decide +kernel
    exact this ch (List.mem_of_getElem? h1) h2
  | 3 =>
    obtain ⟨ch, -, h1, h2⟩ := h
    have : ∀ ch : Fin 24, startableCfg.ci.wired[ch].cfg.kind ≠ .off → ch ∈ startableCfg.cu.scan := by decide +kernel
    exact h2 (this ch h1)
  | 4 =>
    obtain ⟨ch, -, -, h2⟩ := h
    have : ∀ ch : Fin 24, startableCfg.ci.wired[ch].cfg.thresholds.Pairwise (· < ·) := by decide +kernel
    exact h2 (this ch)
  | 5 =>
    obtain ⟨ch, p, -, h1, -⟩ := h
    have : ∀ ch : Fin 24, startableCfg.ci.wired[ch].cfg.partner = none := by decide +kernel
    rw [this ch] at h1; cases h1
  | 6 => exact h.2 ⟨0, by decide +kernel, by decide +kernel, by decide +kernel⟩
  | 7 =>
    obtain ⟨g, r, -, h1, -⟩ := h
    have : ∀ g : Fin 8, startableCfg.ge[g].record = none := by decide +kernel
    rw [this g] at h1; cases h1
  | 8 =>
    obtain ⟨w, d, -, h1, -⟩ := h
    have : ∀ w : Fin 64, startableCfg.wm.defs[w] = none := by decide +kernel
    rw [this w] at h1; cases h1
  | 9 =>
    obtain ⟨l, c, -, h1, -⟩ := h
    have : ∀ l : Fin 8, startableCfg.dm.leaves[l].cfg = none := by decide +kernel
    rw [this l] at h1; cases h1
  | 10 =>
    obtain ⟨sel, h1, -⟩ := h
    have : startableCfg.fm.freeze = [] := rfl
    rw [this] at h1; cases h1
  | _ + 11 => exact h

def startableOn : State := { startableCfg with sc := { startableCfg.sc with ignOn := true } }

def restarting : State := { shutdown with sc := { shutdown.sc with ignPending := true } }

/-- A watch pass in WAKING, W4 its one channel, at the end of a conversion of W4. -/
def watchPass (pos : PassElement) (ignPending : Bool) : State :=
  let s := converting (.wired 4) .pass false (withLeaf leafCfg id (watching parked))
  { s with sc := { s.sc with watch := .waking, watchSet := [4], ignPending }, cu := { s.cu with pos } }

def watchConversion : Conversion := { target := .wired 4, origin := .pass, gate := 0, phase := .gate, hostMark := false }

/-- Ignition ON in PARKED with the supply LOW: warning 7 enters ACTIVE at the RUN entry, warning 8 DELAYING. -/
def keyOnLow : State :=
  { keyOn with
    ci := { keyOn.ci with supply := .low }
    wm := { keyOn.wm with
      defs := (keyOn.wm.defs.set 7 (some { stopDef with delay := 0 })).set 8 (some { stopDef with pattern := none }) }
    ao := { keyOn.ao with patterns := keyOn.ao.patterns.set 1 (some { tone := .high, env := 0b1010, rep := 1 }) } }

/-- The clauses of RUN entry on the warnings, the index and the chime: one warning starts at once, or none does. -/
theorem witness_EntersRun_starts :
    keyOnLow.sc.service = false ∧ keyOnLow.sc.ignRaw = true ∧ keyOnLow.sc.ignOn = false ∧ 50 ≤ keyOnLow.sc.steadyMs ∧
    keyOnLow.sc.opState = .parked ∧ keyOnLow.sc.watch ≠ .waking ∧ keyOnLow.startsAtEntry = [7] ∧
    keyOnLow.linkedAtEntry 7 = true ∧ keyOnLow.qualifiedAtEntry 8 = true ∧ keyOnLow.chimes 7 = true ∧
    keyOnLow.fm.index.length + (keyOnLow.startsAtEntry.filter keyOnLow.linkedAtEntry).length ≤ 32 ∧
    (∀ w ∈ List.finRange 64, ∀ d ∈ keyOnLow.wm.defs[w], ∀ p ∈ d.pattern, (keyOnLow.ao.patterns[p]).isSome) ∧
    (∀ w : Fin 64, keyOn.linkedAtEntry w = false) := by decide +kernel

/-- The evaluation of RUN entry with the supply LOW (R98, R100, R110). -/
theorem test_run_entry_warns :
    let t := warningsRunEntry (resetWarnings { keyOnLow with sc := run.sc })
    t.wm.list = [7] ∧ t.wm.inst[7].act = some keyOnLow.wm.counter ∧ t.wm.inst[8].delayT = some 500 ∧
    t.wm.inst[8].state = .delaying ∧ t.wm.inst[7].state = .active := by decide +kernel

theorem witness_EveryRunEntrySettlesTheBlocks :
    ((watchPass (.entry 0) true).gateEnds watchConversion 0 ∧ (watchPass (.entry 0) true).sc.opState = .parked ∧
      (watchPass (.entry 0) true).cu.pos.following (watchPass (.entry 0) true).sc.watchSet.length = .reference ∧
      (watchPass (.entry 0) true).sc.ignPending = true ∧
      (∀ g : Fin 8, (watchPass (.entry 0) true).ge[g].pointer = .unpowered) ∧
      (watchPass (.entry 0) true).sc.service = false) ∧
    startableOn.sc.service = false ∧ startableOn.taking ∧ startableOn.sc.opState = .config ∧ startableOn.startable ∧
    startableOn.sc.ignOn = true ∧ keyOn.sc.service = false ∧ keyOn.sc.ignRaw = true ∧ keyOn.sc.ignOn = false ∧
    50 ≤ keyOn.sc.steadyMs ∧ keyOn.sc.opState = .parked ∧ keyOn.sc.watch ≠ .waking ∧ restarting.sc.service = false ∧
    restarting.sc.opState = .shutdown ∧ (∀ g : Fin 8, restarting.ge[g].pointer = .unpowered) ∧ restarting.jc.queue = [] ∧
    (restarting.jc.inFlight = none ∨ restarting.jc.inFlight = some .erase) ∧ restarting.jc.reclaim = .idle ∧
    restarting.sc.ignPending = true := by
  refine ⟨by simp only [State.gateEnds]; decide +kernel, rfl, by decide +kernel, rfl, startableCfg_startable, rfl, ?_⟩
  decide +kernel

theorem witness_EveryParkedEntryIsQuiet :
    startableCfg.taking ∧ startableCfg.sc.opState = .config ∧ startableCfg.startable ∧ startableCfg.sc.ignOn = false ∧
    shutdown.sc.opState = .shutdown ∧ (∀ g : Fin 8, shutdown.ge[g].pointer = .unpowered) ∧ shutdown.jc.queue = [] ∧
    (shutdown.jc.inFlight = none ∨ shutdown.jc.inFlight = some .erase) ∧ shutdown.jc.reclaim = .idle ∧
    shutdown.sc.ignPending = false := by
  refine ⟨by decide +kernel, rfl, startableCfg_startable, rfl, ?_⟩
  decide +kernel

theorem witness_IgnitionOffEntersShutdown :
    keyOff.outputsSound ∧ keyOff.sc.opState = .run ∧ keyOff.sc.ignRaw = false ∧ keyOff.sc.ignOn = true ∧
    500 ≤ keyOff.sc.steadyMs := by
  simp only [State.outputsSound]; decide +kernel

/-- Warning 7 ACTIVE with its presence held and its pattern sounding, in a state. -/
def warned (s : State) : State :=
  let s := refreshLamps ((sounding (.owner 7 0) 0 0 (warning .active id s)).modAo fun a =>
    { a with listCopy := [{ w := 7, state := .active, act := 0 }] })
  { s with
    fm := { s.fm with
      presence := s.fm.presence.set (sourceIndex (.warning 7)) true
      trackers := s.fm.trackers.set (sourceIndex (.warning 7)) { state := .confirmed, timer := none } } }

/-- A warning that is gone at the end of RUN, with its source present, and a chime in its on-period. -/
theorem witness_LeavingRunHandsAbsences :
    (warned keyOff).outputsSound ∧ (warned keyOff).sc.opState = .run ∧ (warned keyOff).sc.ignRaw = false ∧
    (warned keyOff).sc.ignOn = true ∧ 500 ≤ (warned keyOff).sc.steadyMs ∧ (warned keyOff).wm.defs[7] = some stopDef ∧
    stopDef.faultLink = true ∧ (warned keyOff).wm.inst[7].state = .active ∧
    (warned keyOff).fm.present (.warning 7) = true ∧ (warned keyOff).chimeTone ≠ none ∧ (warned run).taking ∧
    (warned run).outputsSound ∧ (warned run).ci.motion = .standstill := by
  simp only [State.outputsSound]; decide +kernel

/-- The tone goes on for its on-period with no claimant, and the source of the warning is absent (R109, R111, R124). -/
theorem test_shutdown_with_a_warning :
    let u := warningsLeaveRun (warned run)
    u.fm.present (.warning 7) = false ∧ u.ao.claimant = .none ∧ u.ao.source = .owner 7 0 ∧ u.chimeTone = some .high := by
  decide +kernel

def keyOnIn (o : OpState) (raw on : Bool) (ms : Nat) : State :=
  { inState o with sc := { (inState o).sc with ignRaw := raw, ignOn := on, steadyMs := ms } }

/-- Steady for 49, 50, 499 and 500 ms, and the 3,600th second of the interval. -/
theorem witness_IgnitionAndOperatingSecondsCount :
    ((keyOnIn .shutdown true false 50).sc.ignRaw = true ∧ (keyOnIn .shutdown true false 50).sc.ignOn = false ∧
      50 ≤ (keyOnIn .shutdown true false 50).sc.steadyMs ∧ (keyOnIn .shutdown true false 50).sc.opState ≠ .parked) ∧
    ((keyOnIn .shutdown false true 500).sc.ignRaw = false ∧ (keyOnIn .shutdown false true 500).sc.ignOn = true ∧
      500 ≤ (keyOnIn .shutdown false true 500).sc.steadyMs ∧ (keyOnIn .shutdown false true 500).sc.opState ≠ .run) ∧
    (keyOnIn .run true false 49).sc.steadyMs < 50 ∧ (keyOnIn .run false true 499).sc.steadyMs < 500 ∧
    run.sc.ignRaw ≠ true ∧ run.sc.ignRaw = false ∧ counting.sc.opState = .run ∧ 1000 ≤ counting.sc.remainderMs ∧
    3599 ≤ counting.sc.cycleInterval ∧
    ({ counting.sc with cycleInterval := 3598 } : Controller).cycleInterval < 3599 ∧ cfg.sc.opState ≠ .run := by
  decide +kernel

theorem witness_StopEntersConfig :
    run.taking ∧ run.outputsSound ∧ run.sc.opState = .run ∧ run.ci.motion = .standstill ∧ stopping.taking ∧
    stopping.outputsSound ∧ stopping.ci.motion ≠ .standstill ∧ parked.taking ∧ parked.outputsSound ∧
    parked.sc.opState = .parked := by
  simp only [State.outputsSound]; decide +kernel

theorem witness_ResetsTakeEveryBlockToItsValues :
    answered.li.restartPending = true ∧ answered.li.transmitter = .idle ∧ run.li.restartPending = false ∧ run.taking ∧
    run.sc.opState ≠ .starting ∧ (∃ t, exec (.hardReset true) run = .next t) ∧ run.jc.row ≠ .programming ∧
    run.jc.inFlight = none ∧ run.jc.finishing = none := by
  refine ⟨rfl, rfl, rfl, by decide +kernel, by decide +kernel, ⟨_, rfl⟩, by decide +kernel, rfl, rfl⟩

def tested : State := { session with ao := { session.ao with overrides := session.ao.overrides.set 23 (some false) } }

theorem witness_TheSessionOpensAndEnds :
    run.taking ∧ run.sc.opState = .run ∧ run.ci.motion = .standstill ∧ run.sc.service = false ∧ stopping.taking ∧
    stopping.ci.motion ≠ .standstill ∧ session.taking ∧ session.sc.service = true ∧ session.outputsSound ∧
    session.testsInForce = false ∧ tested.taking ∧ tested.sc.service = true ∧ tested.testsInForce = true ∧
    tested.outputsSound := by
  simp only [State.outputsSound]; decide +kernel

def inPointer (st : PointerState) : State := { gauging fuelRec (fun x => { x with pointer := st }) with sc := session.sc }

theorem witness_ActuatorTestsForceTheirOutputs :
    (inPointer .tracking).taking ∧ (inPointer .tracking).sc.opState = .run ∧ (inPointer .tracking).sc.service = true ∧
    2880 < 65536 ∧ (inPointer .tracking).ge[2].record = some fuelRec ∧ 2880 ≤ fuelRec.span ∧ fuelRec.span < 2881 ∧
    (inPointer .tracking).ge[2].pointer = .tracking ∧ (inPointer .test).ge[2].pointer = .test ∧
    (inPointer .hold).ge[2].pointer = .hold ∧ (inPointer .hold).ge[3].record = none ∧ 0 < 1 ∧ 2 ^ 24 - 1 < 2 ^ 24 ∧
    (∀ l : Fin 24, session.ao.drive[l] = session.lampDrive l) ∧ 2 ≤ (2 : Byte).toNat ∧
    (sounding .none 3 0 session).ao.patterns[1].isSome ∧ (sounding .none 3 0 session).chimeTone = none ∧
    (sounding (.test 1 0) 3 0 session).chimeTone ≠ none ∧
    (∀ p : Fin 8, p.val = (8 : Byte).toNat → session.ao.patterns[p] = none) := by decide +kernel

theorem witness_ClearFaultsSweepsTheIndex :
    session.taking ∧ session.sc.opState = .run ∧ session.sc.service = true ∧ session.fm.clearPending = false ∧
    (∀ src : FaultSource, session.fm.present src = true → (confirmTime src).isSome) ∧
    (after (.replySent) (after (.clearFaults 0 []) session)).taking ∧
    (after (.replySent) (after (.clearFaults 0 []) session)).fm.clearPending = true := by
  refine ⟨by decide +kernel, rfl, rfl, rfl, fun src h => ?_, by decide +kernel, by decide +kernel⟩
  have : ∀ i : Fin 147, session.fm.presence[i] = false := by decide +kernel
  simp only [FaultMem.present] at h
  rw [this] at h; cases h

theorem witness_ResetDoorStatsZeroesOneLeaf :
    worn.taking ∧ worn.sc.opState = .run ∧ worn.sc.service = true ∧ cfg.taking ∧ cfg.sc.opState = .config ∧
    cfg.sc.service = false ∧ 8 ≤ (8 : Byte).toNat ∧
    (withLeaf leafCfg (fun l => { l with cycleMark := true }) run).dm.leaves[3].cycleMark = true ∧
    secureState (withLeaf leafCfg id run).dm.leaves[3].hasLock .closed = true ∧
    (State.leafRun session 2 (Leaf.fresh none)).stats.mean = none := by decide +kernel

theorem witness_TheVehicleIdentityIsWrittenOnce :
    session.taking ∧ session.sc.opState = .run ∧ session.sc.service = true ∧ identity.length = 17 ∧
    (∀ b ∈ identity, 0x20 ≤ b.toNat ∧ b.toNat ≤ 0x7E) ∧ session.jc.row = .blank ∧ (List.replicate 18 (0 : Byte)).length ≠ 17 ∧
    (∃ b ∈ List.replicate 17 (0x7F : Byte), b.toNat < 0x20 ∨ 0x7E < b.toNat) ∧
    ({ session.jc with row := .spoiled } : Journal).row ≠ .blank ∧ (operating (.row 4 identity) run).jc.finishing = none ∧
    (operating (.row 4 identity) run).jc.inFlight = some (.row 4 identity) ∧ 5 ≤ (operating (.row 4 identity) run).jc.opMs := by
  decide +kernel

def restartingWrite : State :=
  { inState .starting with jc := { Journal.reset with finishing := some (.program aRecord), opMs := 3 } }

theorem witness_ArrayOperationsMoveTheJournal :
    (operating (.program aRecord) run).jc.finishing = none ∧
    (operating (.program aRecord) run).jc.inFlight = some (.program aRecord) ∧ 3 ≤ (operating (.program aRecord) run).jc.opMs ∧
    (operating (.copy aRecord) run).jc.inFlight = some (.copy aRecord) ∧
    restartingWrite.jc.finishing = some (.program aRecord) ∧ 3 ≤ restartingWrite.jc.opMs ∧ run.jc.opMs < 3 ∧
    (operating (.header 1) run).jc.inFlight = some (.header 1) ∧ (operating (.header 1) run).jc.reclaim = .idle ∧
    (∃ i : Fin 4, i ≠ 1 ∧ (operating (.header 1) run).jc.sectors[i] = { header := .blank, slots := [] }) ∧
    erasing.jc.inFlight = some .erase ∧ erasing.jc.reclaim = .erasing 1 120 := by decide +kernel

theorem witness_HardResetCutsOffTheOperation :
    (operating (.header 1) run).sc.opState ≠ .starting ∧ (operating (.header 1) run).jc.finishing = none ∧
    (operating (.row 4 identity) run).jc.inFlight = some (.row 4 identity) ∧
    (operating (.program aRecord) run).jc.inFlight = some (.program aRecord) := by decide +kernel

def recordedSector : Sector where
  header := .sequence 1
  slots := [.record { seq := 3, content := .cycle 8 100 }, .void, .record { seq := 4, content := .cycle 9 200 }]

def recorded : State :=
  { rebuilding with jc := { rebuilding.jc with sectors := rebuilding.jc.sectors.set 0 recordedSector } }

theorem witness_RebuildCompleteHandsTheValuesOver :
    recorded.sc.opState = .starting ∧ recorded.jc.finishing = none ∧ recorded.jc.rebuildMs = 0 ∧
    (∀ i : Fin 4, recorded.jc.sectors[i].header = .blank → recorded.jc.sectors[i].slots = []) ∧
    recorded.jc.newest (fun c => ∃ a b, c = .cycle a b) { seq := 4, content := .cycle 9 200 } ∧
    State.reset.sc.opState = .starting ∧ 0 < State.reset.jc.rebuildMs := by
  refine ⟨rfl, rfl, rfl, by decide +kernel, ⟨?_, ⟨9, 200, rfl⟩, ?_⟩, rfl, by decide +kernel⟩
  · exact ⟨0, by decide +kernel, Or.inl (by decide +kernel), by decide +kernel⟩
  · rintro x ⟨i, -, -, h⟩ -
    have : ∀ i : Fin 4, ∀ y ∈ recorded.jc.sectors[i].slots,
        y = .void ∨ y = .record { seq := 3, content := .cycle 8 100 } ∨
          y = .record { seq := 4, content := .cycle 9 200 } := by decide +kernel
    rcases this i _ h with h | h | h <;> cases h
    · exact .inr (by decide)
    · exact .inl rfl

/-- The record of one of 33 warnings, all alike but for the seconds they were last seen. -/
def crowd (k : Fin 33) : Record :=
  { seq := k.val + 1, content := .faultEntry (faultEntry (.warning (Fin.castLE (by decide) k)) .caution 1 k.val) }

/-- A journal that hands over 33 entries: the first of them is left out (R164). -/
def crowded : State :=
  { rebuilding with jc := { rebuilding.jc with
      sectors := rebuilding.jc.sectors.set 0
        { header := .sequence 1, slots := (List.finRange 33).map fun k => .record (crowd k) } } }

theorem crowded_reads (x : Record) (h : crowded.jc.reads x) : ∃ k : Fin 33, x = crowd k := by
  obtain ⟨i, -, -, h⟩ := h
  have : ∀ i : Fin 4, ∀ y ∈ crowded.jc.sectors[i].slots, y ∈ (List.finRange 33).map fun k => Slot.record (crowd k) := by
    decide +kernel
  obtain ⟨k, -, hk⟩ := List.mem_map.1 (this i _ h)
  exact ⟨k, by cases hk; rfl⟩

/-- The clauses on the fault index, one entry handed over and left out, and on a journal without CYCLE and DOOR_STATS. -/
theorem witness_RebuildHandsEntriesOver :
    crowded.sc.opState = .starting ∧ crowded.jc.finishing = none ∧ crowded.jc.rebuildMs = 0 ∧
    (∀ i : Fin 4, crowded.jc.sectors[i].header = .blank → crowded.jc.sectors[i].slots = []) ∧
    crowded.jc.handsOver 0 (crowd 0) (faultEntry (.warning 0) .caution 1 0) ∧
    (∀ (x : Record) (k : FaultEntry), crowded.jc.reads x → x.content = .faultEntry k → k.src = .warning 0 →
      x.seq = (crowd 0).seq → x = crowd 0) ∧
    (after .rebuildComplete crowded).sc.cycle = 0 ∧
    faultEntry (.warning 0) .caution 1 0 ∉ (after .rebuildComplete crowded).fm.index ∧
    faultEntry (.warning 1) .caution 1 1 ∈ (after .rebuildComplete crowded).fm.index ∧
    (∀ r n sec, crowded.jc.reads r → r.content ≠ .cycle n sec) ∧ (∀ r v, crowded.jc.reads r → r.content ≠ .doorStats v) := by
  refine ⟨rfl, rfl, rfl, by decide +kernel, ⟨⟨⟨0, by decide +kernel, .inl (by decide +kernel), by decide +kernel⟩, rfl⟩,
    ?_, ?_, ?_, by decide⟩, ?_, by decide +kernel, by decide +kernel, by decide +kernel, ?_, ?_⟩
  · rintro x f h hc hs
    obtain ⟨k, rfl⟩ := crowded_reads x h
    cases hc
    have : ∀ k : Fin 33, FaultSource.warning (Fin.castLE (by decide : 33 ≤ 64) k) = .warning 0 → (crowd k).seq ≤ 1 := by
      decide +kernel
    exact this k hs
  · rintro x h hc
    obtain ⟨k, rfl⟩ := crowded_reads x h
    cases hc
  · rintro x f h hc hd
    obtain ⟨k, rfl⟩ := crowded_reads x h
    cases hc
    cases hd
  · rintro x f h - - hq
    obtain ⟨k, rfl⟩ := crowded_reads x h
    have : ∀ k : Fin 33, (crowd k).seq = (crowd 0).seq → crowd k = crowd 0 := by decide +kernel
    exact this k hq
  · rintro x n sec h hc
    obtain ⟨k, rfl⟩ := crowded_reads x h
    cases hc
  · rintro x v h hc
    obtain ⟨k, rfl⟩ := crowded_reads x h
    cases hc

/-- Due and not due by a millisecond or a quarter; the last entry of a pass, and a fourth priority conversion in a row. -/
theorem witness_ConversionsSettleGateAndFollow :
    (settling run .quiet).sc.opState = .run ∧ (settling run .quiet).cu.path = .settling ∧
    20 ≤ (settling run .quiet).cu.settleMs ∧ run.cu.path ≠ .settling ∧
    begun.cu.inFlight = some { target := .reference, origin := .pass, gate := 2, phase := .settle, hostMark := false } ∧
    begun.cu.elapsedQ = 0 ∧ 1 ≤ (after .tripClockTick begun).cu.elapsedQ ∧
    sensing.gateEnds { target := .wired 5, origin := .pass, gate := 0, phase := .gate, hostMark := false } 0 ∧
    sensing.sc.opState = .run ∧ sensing.cu.latch[5] = .armed ∧
    (converting (.wired 5) .priority true queued).gateEnds
      { target := .wired 5, origin := .priority, gate := 0, phase := .gate, hostMark := true } 0 := by
  simp only [State.gateEnds]; decide +kernel

def latched (s : State) : State := { s with cu := { s.cu with latch := s.cu.latch.set 4 .set } }

/-- In a watch pass: the supply before the last element, and the last element with the latch ARMED and SET. -/
theorem witness_ConversionsRunTheWatchPass :
    (watchPass .supply false).gateEnds watchConversion 0 ∧ (watchPass .supply false).sc.opState = .parked ∧
    (watchPass .supply false).cu.pos.following 1 = .entry 0 ∧ (watchPass (.entry 0) false).cu.pos.following 1 = .reference ∧
    (watchPass (.entry 0) false).sc.ignPending = false ∧ (latched (watchPass (.entry 0) false)).cu.latch[4] = .set ∧
    (after (.conversionComplete 10000 0 5) (watchPass (.entry 0) false)).sc.watch = .draining ∧
    (after (.conversionComplete 10000 0 5) (latched (watchPass (.entry 0) false))).cu.pos = .reference ∧
    (watchPass .supply false).dm.leaves[3].cfg = some leafCfg ∧ leafCfg.watched = true := by
  simp only [State.gateEnds]; decide +kernel

theorem witness_WiredResultsMoveTheChannelAndItsLatch :
    let s := converting (.wired 4) .priority true (withChannels run)
    let c : Conversion := { target := .wired 4, origin := .priority, gate := 0, phase := .gate, hostMark := true }
    s.gateEnds c 0 ∧ s.sc.opState = .run ∧ s.ci.judgement ≠ some .good ∧
    s.ci.wired[4].cfg.thresholds.Pairwise (· < ·) ∧
    (∀ i, s.ci.wired[4].confirmed = some (.band i) → i ≤ s.ci.wired[4].cfg.thresholds.length) ∧
    sensing.gateEnds { target := .wired 5, origin := .pass, gate := 0, phase := .gate, hostMark := false } 0 ∧
    sensing.ci.judgement = some .good ∧ sensing.ci.refFault = false ∧ sensing.ci.wired[5].cfg.kind ≠ .off ∧
    sensing.ci.passCount = some 4000 := by
  refine ⟨by simp only [State.gateEnds]; decide +kernel, rfl, by decide +kernel, by decide +kernel, fun i h => ?_,
    by simp only [State.gateEnds]; decide +kernel, rfl, rfl, by decide +kernel, rfl⟩
  have : (converting (.wired 4) .priority true (withChannels run)).ci.wired[4].confirmed = none := by decide +kernel
  rw [this] at h; cases h

/-- A watched door switch read ACTIVE for the second time, in RUN and in a watch pass. -/
def doorSensing (s : State) : State :=
  { s with ci := { s.ci with
      wired := s.ci.wired.set 4 { s.ci.wired[4] with candidate := some (.band 0), candCount := 1 }
      passCount := some 4000, judgement := some .good } }

theorem witness_WiredResultsAreHandedOver :
    let s := doorSensing (converting (.wired 4) .pass false (warning .inactive id (withLeaf leafCfg id (withChannels run))))
    let p := doorSensing (watchPass (.entry 0) false)
    s.gateEnds watchConversion 0 ∧ s.sc.opState = .run ∧ s.dm.leaves[3].cfg = some leafCfg ∧
    s.leafHanded (after (.conversionComplete 20000 0 5) s) leafCfg ∧ s.wm.defs[7] = some stopDef ∧
    s.wm.view = some (.runEntry .normal) ∧ s.readsOneThing stopDef.cond ∧ p.gateEnds watchConversion 0 ∧
    p.sc.opState = .parked ∧ p.sc.ignPending = false ∧ p.ci.judgement = some .good := by
  refine ⟨by simp only [State.gateEnds]; decide +kernel, rfl, by decide +kernel, ⟨0, ⟨4, false⟩, rfl, by decide +kernel⟩,
    by decide +kernel, rfl, trivial, by simp only [State.gateEnds]; decide +kernel, rfl, rfl, rfl⟩

/-- W4 a switch with partner W6; the loop of W4 stalls in the middle while W6 is in a status. -/
def paired (st : Status) (s : State) : State :=
  let c : WiredCfg := { switchCfg with confirm := 1 }
  let s := converting (.wired 4) .pass false (withChannels s)
  { s with ci := { s.ci with
      wired := (s.ci.wired.set 4 { Wired.fresh { c with partner := some 6 } with status := .valid }).set 6
        { Wired.fresh { c with partner := some 4 } with status := st, wiring := if st = .fault then .openLoop else .none }
      passCount := some 4000, judgement := some .good } }

/-- W4 confirms STALL_MID: it switches where W6 is VALID, with SWITCHED W4 (6), and waits where W6 is FAULT (R62). -/
theorem test_switchover :
    let t := after (.conversionComplete 0 1 2) (paired .valid run)
    t.ci.wired[4].switched = true ∧ (t.ci.eff 4).status = .valid ∧
    (∃ r ∈ t.li.reports, r.event = .switched ∧ r.item = 4 ∧ r.value = some 6) ∧
    (after (.conversionComplete 0 1 2) (paired .fault run)).ci.wired[4].switched = false := by decide +kernel

/-- A pair of which the primary faults with its partner VALID; a primary with its flag set and one with it clear. -/
theorem witness_SwitchoverIsSetAndReported :
    let s := paired .valid run
    let t := after (.conversionComplete 0 1 2) s
    s.gateEnds watchConversion 0 ∧ s.sc.opState = .run ∧ s.ci.judgement = some .good ∧ s.ci.refFault = false ∧
    s.ci.wired[4].cfg.kind ≠ .off ∧ s.ci.passCount = some 4000 ∧ s.ci.paired 4 6 ∧ t.ci.paired 4 6 ∧
    t.ci.wired[4].status = .fault ∧ t.ci.wired[6].status = .valid ∧ s.ci.wired[4].switched = false ∧
    t.ci.wired[4].switched = true ∧ t.ci.wired[5].switched = false := by
  simp only [State.gateEnds]; decide +kernel

/-- A watch pass at its REFERENCE, W4 of the watch set and W5 outside it both VALID. -/
def judging (n : Nat) : State :=
  let s := watchPass .reference false
  { s with
    cu := { s.cu with inFlight := some { watchConversion with target := .reference } }
    ci := { s.ci with
      wired := (s.ci.wired.set 4 { s.ci.wired[4] with status := .valid }).set 5 { s.ci.wired[5] with status := .valid }
      failCount := n } }

/-- A failed judgement in PARKED holds the channel of the watch set; the other keeps its status (R71). -/
theorem test_judgement_in_parked :
    let t := after (.conversionComplete 2610 0 5) (judging 0)
    t.ci.wired[4].status = .held ∧ t.ci.wired[5].status = .valid ∧ t.ci.failCount = 1 := by decide +kernel

/-- A reference judged in a watch pass, with a channel of the watch set and one outside it. -/
theorem witness_JudgementsInParked :
    (judging 0).gateEnds { watchConversion with target := .reference } 0 ∧ (judging 0).sc.opState = .parked ∧
    (judging 0).cu.pos.following (judging 0).sc.watchSet.length ≠ .reference ∧ 4 ∈ (judging 0).sc.watchSet ∧
    5 ∉ (judging 0).sc.watchSet ∧ (judging 0).ci.wired[5].cfg.kind ≠ .off ∧ (judging 0).ci.failCount < 2 ∧
    2 ≤ (judging 2).ci.failCount ∧ (judging 2).ci.refFault = false := by
  simp only [State.gateEnds]; decide +kernel

def failing (n : Nat) (f : Bool) : State :=
  let s := converting .reference .pass false (withChannels run)
  { s with ci := { s.ci with failCount := n, refFault := f } }

/-- Counts at both bounds of the window and outside, the failure counts 0 to 3, and a supply that falls to LOW. -/
theorem witness_ReferenceAndSupplyResultsAreJudged :
    let c : Conversion := { target := .reference, origin := .pass, gate := 0, phase := .gate, hostMark := false }
    (failing 1 false).gateEnds c 0 ∧ (failing 1 false).sc.opState = .run ∧
    ((failing 1 false).ci.nRefMin ≤ 3000 ∧ 5000 ≤ (failing 1 false).ci.nRefMax) ∧
    ¬ (failing 1 false).ci.nRefMin ≤ 2999 ∧ (failing 1 false).ci.failCount < 2 ∧ 2 ≤ (failing 2 false).ci.failCount ∧
    (failing 2 false).ci.refFault = false ∧ (failing 3 true).ci.refFault = true ∧
    (converting .supply .pass false run).gateEnds { c with target := .supply } 0 ∧
    min 60000 (4 * 3999) < 16000 ∧ (converting .supply .pass false run).ci.supply ≠ .low := by
  simp only [State.gateEnds]; decide +kernel

/-- A supply LOW with a gauge in HOLD. -/
def holding (resume : PointerState) (f : Gauge → Gauge) (s : State) : State :=
  let s := converting .supply .pass false s
  { s with ci := { s.ci with supply := .low }
           ge := s.ge.set 2 (f { Gauge.fresh (some fuelRec) [] with pointer := .hold, resume := some resume }) }

/-- Every resume state, with and without a session; the third homing restart; a watch pass before its end. -/
theorem witness_SupplyReturnsTheGauges :
    let c : Conversion := { target := .supply, origin := .pass, gate := 0, phase := .gate, hostMark := false }
    (holding .tracking id run).gateEnds c 0 ∧ (holding .tracking id run).ci.supply = .low ∧
    ¬ min 60000 (4 * 4250) < 17000 ∧ (holding .tracking id run).ge[2].resume = some .tracking ∧
    (holding .test id run).ge[2].resume = some .test ∧ run.sc.service = false ∧ session.sc.service = true ∧
    (holding .homing (fun x => { x with homed := true, restarts := 2 }) run).ge[2].resume = some .homing ∧
    (holding .homing id run).ge[2].record = some fuelRec ∧ (holding .homing id run).ge[3].pointer ≠ .hold ∧
    (watchPass .supply false).cu.pos.following (watchPass .supply false).sc.watchSet.length ≠ .reference := by
  simp only [State.gateEnds]; decide +kernel

theorem witness_ComparatorEventsQueueOrWake :
    (watching run).cu.comparator[4] ≠ .unpowered ∧ 17 * (watching run).ci.wired[4].cfg.watchThr < 16 * 426 ∧
    ¬ 17 * (watching run).ci.wired[4].cfg.watchThr < 16 * 425 ∧ (watching run).cu.latch[4] = .armed ∧
    (watching run).sc.opState = .run ∧ (watching parked).sc.opState = .parked ∧ (watching parked).sc.watch = .quiet ∧
    (settling (watching parked) .waking).sc.watch = .waking ∧ (settling (watching parked) .draining).sc.watch = .draining ∧
    run.cu.comparator[0] = .unpowered ∧
    ((watching run).cu.latch.set 4 .set)[4] = .set ∧ (settling parked .settling).sc.watch = .settling ∧
    20 ≤ (settling parked .settling).cu.settleMs ∧ (settling parked .draining).jc.queue = [] ∧
    (settling parked .draining).jc.inFlight = none ∧ parked.sc.watch ≠ .settling ∧ parked.sc.watch ≠ .draining := by
  decide +kernel

theorem witness_NetworkAndStandstillTimersExpire :
    let v := posted .valid fun n => { n with freshT := some 0 }
    let h := posted .held fun n => { n with lostT := some 0 }
    let i := posted .init fun n => { n with initT := some 0 }
    (v.sc.opState = .run ∧ v.ci.net[0].status = .valid ∧ v.ci.net[0].freshT = some 0) ∧
    (h.sc.opState = .run ∧ h.ci.net[0].status = .held ∧ h.ci.net[0].lostT = some 0) ∧
    (i.sc.opState = .run ∧ i.ci.net[0].status = .init ∧ i.ci.net[0].initT = some 0) ∧
    (withChannels run).ci.motionChannel = some (netCh 0) ∧ run.ci.net[0].freshT ≠ some 0 ∧
    (stopping.sc.opState = .run ∧ stopping.ci.standstillT = some 0) ∧ run.ci.standstillT ≠ some 0 := by decide +kernel

/-- A gauge at the boundary of each clause: 16 and 17 steps from the stop, 16 and 17 pulses left, a span just reached. -/
theorem witness_GaugeUpdatesActByPointerState :
    let gg (f : Gauge → Gauge) : Gauge := (gauging fuelRec f).ge[2]
    (gg id).record = some fuelRec ∧ 20 ≤ (gg id).updateMs ∧
    (gg fun x => { x with pointer := .tracking }).pointer = .tracking ∧
    (gg fun x => { x with pointer := .homing, homingPhase := .countdown, pos := 17 }).homingPhase = .countdown ∧
    16 < (gg fun x => { x with pointer := .homing, homingPhase := .countdown, pos := 17 }).pos ∧
    (gg fun x => { x with pointer := .homing, homingPhase := .countdown, pos := 16 }).pos ≤ 16 ∧
    (gg fun x => { x with pointer := .homing, homingPhase := .stopPulses }).homingPhase = .stopPulses ∧
    16 < (gg fun x => { x with pointer := .homing, homingPhase := .stopPulses, stopPulses := 17 }).stopPulses ∧
    (gg fun x => { x with pointer := .homing, homingPhase := .stopPulses, stopPulses := 16 }).stopPulses ≤ 16 ∧
    (gg fun x => { x with pointer := .sweep, sweepPhase := .up, pos := 2863 }).sweepPhase = .up ∧
    (gg fun x => { x with pointer := .sweep, sweepPhase := .up, pos := 2863 }).pos + 16 < fuelRec.span ∧
    fuelRec.span ≤ (gg fun x => { x with pointer := .sweep, sweepPhase := .up, pos := 2864 }).pos + 16 ∧
    (gg fun x => { x with pointer := .sweep, sweepPhase := .down }).sweepPhase = .down ∧
    (gg fun x => { x with pointer := .test, testPos := some 6, testDue := true }).testPos = some 6 ∧
    towards 0 6 fuelRec.slew = 6 ∧ towards 0 7 fuelRec.slew ≠ 7 ∧
    0 < (gg fun x => { x with pointer := .parking, pos := 1 }).pos ∧
    (gg fun x => { x with pointer := .parking }).pos = 0 ∧ (gg fun x => { x with updateMs := 19 }).updateMs < 20 ∧
    (gg fun x => { x with pointer := .hold }).pointer = .hold := by decide +kernel

theorem witness_HomingAndParkingEndInTime :
    let h := gauging { fuelRec with span := 100 } fun x =>
      { x with pointer := .homing, homingPhase := .countdown, pos := 100, stopPulses := 12, updateMs := 0 }
    let p := gauging fuelRec fun x => { x with pointer := .parking, pos := 0, updateMs := 0 }
    h.ge[2].record = some { fuelRec with span := 100 } ∧ h.ge[2].updateMs = 0 ∧ h.ge[2].pointer = .homing ∧
    h.ge[2].homingPhase = .countdown ∧ h.ge[2].pos = 100 ∧ h.ge[2].stopPulses = 100 / 8 ∧ 100 ≤ 100 ∧
    p.ge[2].record = some fuelRec ∧ p.ge[2].updateMs = 0 ∧ p.ge[2].pointer = .parking := by decide +kernel

theorem witness_MeasuringArithmeticRoundsToNearest :
    0 < 4 ∧ (⟨90, 500⟩ : CurvePoint).x < (⟨135, 250⟩ : CurvePoint).x ∧ (90 : Int) ≤ 134 ∧ (134 : Int) < 135 ∧
    fuelRec.vMin < fuelRec.vMax ∧ fuelRec.vMin < 1 ∧ (999 : Int) < fuelRec.vMax ∧ 307200 ≤ 256 * 1279 ∧
    256 * 1200 ≤ 307200 ∧ 307200 ≠ 256 * 1279 := by decide +kernel

theorem witness_WarningTimersMakeTheInstanceActive :
    let d := warning .delaying (fun i => { i with delayT := some 0, act := none }) run
    let a := warning .acked (fun i => { i with alertT := some 0 }) run
    d.wm.defs[7] = some stopDef ∧ d.sc.opState = .run ∧ d.warnSound ∧ d.wm.inst[7].state = .delaying ∧
    d.wm.inst[7].delayT = some 0 ∧ stopDef.faultLink = true ∧ a.wm.defs[7] = some stopDef ∧ a.sc.opState = .run ∧
    a.warnSound ∧ a.wm.inst[7].state = .acked ∧ a.wm.inst[7].alertT = some 0 ∧ run.wm.inst[7].state ≠ .delaying ∧
    run.wm.inst[7].state ≠ .acked := by
  simp only [State.warnSound]; decide +kernel

/-- Phases at which the period of P1 is and is not complete, the last repeat, and a claimant that waits for the on-period. -/
theorem witness_EnvelopeStepsCarryTheChime :
    let s := sounding (.owner 7 0) 1 7 (warning .active id run)
    let w := { sounding (.owner 7 0) 0 0 (warning .active id run) with ao :=
      { (sounding (.owner 7 0) 0 0 (warning .active id run)).ao with claimant := .none } }
    s.ao.genRunning = true ∧ 250 ≤ s.ao.genQ ∧ s.sourcePattern = some { tone := .high, env := 0b1010, rep := 1 } ∧
    ((7 + 1) % 16) % envPeriod 0b1010 = 0 ∧ s.ao.burst + 1 = 1 ∧ w.ao.claimant ≠ w.ao.source ∧ w.sc.opState = .run ∧
    envOn 0b1010 ((0 + 1) % 16) = false ∧ envOn 0b1010 ((7 + 1) % 16) = true ∧
    (sounding (.test 1 0) 1 7 session).ao.source = .test 1 (sounding (.test 1 0) 1 7 session).ao.testGen ∧
    (sounding (.test 1 0) 1 7 session).ao.chimeTest.isSome ∧ (sounding .none 0 15 run).ao.source = .none ∧
    run.ao.genRunning = false ∧ run.ao.bulb ≠ some 0 ∧
    ({ w with sc := cfg.sc } : State).sc.opState ≠ .run ∧ w.ao.claimant = .none ∧
    (sounding (.owner 7 0) 0 0 cfg).ao.source ≠ .none ∧ (sounding (.owner 7 0) 0 0 cfg).sourcePattern = none := by decide +kernel

theorem witness_DoorTimersOpenOrRaiseTheLockFault :
    let o := withLeaf leafCfg (fun l => { l with state := .opening, travelT := some 0 }) shutdown
    let c := withLeaf lockLeafCfg (fun l => { l with state := .closed, lockT := some 0 }) run
    o.dm.leaves[3].cfg = some leafCfg ∧ o.sc.opState = .shutdown ∧ o.dm.leaves[3].state = .opening ∧
    o.dm.leaves[3].travelT = some 0 ∧ o.dm.leaves[3].readings[slotClosed] ≠ .active ∧ o.dm.leaves[3].hasOpenEnd = false ∧
    c.dm.leaves[3].cfg = some lockLeafCfg ∧ c.sc.opState = .run ∧ c.dm.leaves[3].state = .closed ∧
    c.dm.leaves[3].lockT = some 0 ∧ c.dm.leaves[3].lockFault = false ∧ c.dm.leaves[3].travelT ≠ some 0 ∧
    o.dm.leaves[3].lockT ≠ some 0 := by decide +kernel

def fullIndex (confirmed : Bool) : State :=
  let s := pendingFault run
  { s with fm := { s.fm with
      index := (List.finRange 32).map fun i => faultEntry (.warning (Fin.castLE (by decide) i)) .caution 1 (100 - i.val)
      presence := if confirmed then Vector.replicate 147 true else s.fm.presence
      trackers := if confirmed then
          (Vector.replicate 147 { state := .confirmed, timer := none }).set (sourceIndex (.system 1))
            { state := .pending, timer := some 0 }
        else s.fm.trackers } }

def seenBefore : State :=
  let s := pendingFault run
  { s with fm := { s.fm with index := [faultEntry (.system 1) .caution 255 7] } }

/-- An entry at 255 occurrences, an empty index, a full one with a victim, and a full one without. -/
theorem witness_ConfirmationsEnterTheFaultIndex :
    ((pendingFault run).sc.opState = .run ∧ (pendingFault run).fm.sound ∧
      (pendingFault run).fm.tracker (.system 1) = { state := .pending, timer := some 0 } ∧
      (pendingFault run).fm.index = []) ∧
    (seenBefore.fm.sound ∧ (∃ e ∈ seenBefore.fm.index, e.src = .system 1)) ∧
    ((fullIndex false).fm.sound ∧ (fullIndex false).fm.index.length = 32 ∧
      (∀ e ∈ (fullIndex false).fm.index, e.src ≠ .system 1) ∧
      (∃ v ∈ (fullIndex false).fm.index, ((fullIndex false).fm.tracker v.src).state ≠ .confirmed ∧
        ∀ u ∈ (fullIndex false).fm.index, u = v ∨ v.lastSeen < u.lastSeen)) ∧
    ((fullIndex true).fm.sound ∧
      ∀ e ∈ (fullIndex true).fm.index, ((fullIndex true).fm.tracker e.src).state = .confirmed) ∧
    run.fm.tracker (.system 1) ≠ { state := .pending, timer := some 0 } := by
  refine ⟨⟨rfl, ?_, ?_⟩, ⟨?_, ?_⟩, ⟨?_, ?_⟩, ⟨?_, ?_⟩, ?_⟩ <;>
    first | decide +kernel | (simp only [FaultMem.sound]; decide +kernel)

end Sys2Proof.Tests
end

section
/-! PROOFS. The request commands and the table of kinds: which row a command serves, what its row accepts, and everything an
owner's answer can be. -/

namespace Sys2Proof.Machine

set_option Elab.async false

/-! ## The rows of the table (R17, R190) -/

/-- A request command serves the row of its kind, with its TAG and payload. -/
theorem exec_eq_serve {i : Instr} {kind : Nat} {tag : Byte} {p : List Byte} (h : i.asRequest = some (kind, tag, p)) :
    ∃ q : Request, (∀ s, exec i s = .next (q.serve tag p s)) ∧ q.code = kind ∧ q ∈ allRequests := by
  cases i <;> cases h <;> exact ⟨_, fun _ => rfl, rfl, by simp [allRequests]⟩

/-- The codes of the rows are the defined kinds. -/
theorem codes_eq_requestKinds : allRequests.map Request.code = requestKinds := rfl

theorem code_mem_requestKinds {q : Request} (hq : q ∈ allRequests) : q.code ∈ requestKinds :=
  codes_eq_requestKinds ▸ List.mem_map_of_mem hq

/-- Two rows of one code are one row. -/
theorem request_eq_of_code {q r : Request} (hq : q ∈ allRequests) (hr : r ∈ allRequests) (h : q.code = r.code) : q = r :=
  List.inj_on_of_nodup_map (by rw [codes_eq_requestKinds]; decide) hq hr h

/-- A frame of a row's code finds that row. -/
theorem find_request {q : Request} (hq : q ∈ allRequests) :
    allRequests.find? (fun r => decide (r.code = q.code)) = some q := by
  cases hf : allRequests.find? fun r => decide (r.code = q.code) with
  | none => simpa using List.find?_eq_none.mp hf q hq
  | some r =>
    have hc : r.code = q.code := by simpa using List.find?_some hf
    rw [request_eq_of_code (List.mem_of_find?_eq_some hf) hq hc]

/-- A frame of an undefined kind finds no row. -/
theorem find_request_none {kind : Nat} (h : kind ∉ requestKinds) :
    allRequests.find? (fun r => decide (r.code = kind)) = none := by
  rw [← codes_eq_requestKinds, List.mem_map] at h
  exact List.find?_eq_none.mpr fun r hr hc => h ⟨r, hr, by simpa using hc⟩

/-- A row accepts the states that the catalogue names for its kind. -/
theorem states_eq_acceptedIn (o : OpState) : ∀ q ∈ allRequests, q.states o = decide (o ∈ acceptedIn q.code) := by
  cases o <;> decide

/-- A row is service-only where the catalogue says so of its kind. -/
theorem service_iff_serviceOnly : ∀ q ∈ allRequests, (q.service = true ↔ serviceOnly q.code) := by
  unfold serviceOnly
  decide

/-- The lengths of SET_CURVE: the cleared form, and 2 to 12 points of 6 bytes. -/
theorem curveLengths_iff (n : Nat) : reqSetCurve.lengths n = true ↔ n = 1 ∨ ∃ k, 2 ≤ k ∧ k ≤ 12 ∧ n = 1 + 6 * k := by
  simp only [reqSetCurve, configRequest, within, Bool.or_eq_true, Bool.and_eq_true, decide_eq_true_eq]
  constructor
  · rintro (h | ⟨⟨lo, hi⟩, hm⟩)
    · exact .inl h
    · exact .inr ⟨n / 6, by omega, by omega, by omega⟩
  · rintro (h | ⟨k, lo, hi, rfl⟩)
    · exact .inl h
    · exact .inr ⟨⟨by omega, by omega⟩, by omega⟩

/-- The lengths of POST_NETWORK: 1 to 16 pairs of 3 bytes. -/
theorem postLengths_iff (n : Nat) : reqPostNetwork.lengths n = true ↔ ∃ k, 1 ≤ k ∧ k ≤ 16 ∧ n = 3 * k := by
  simp only [reqPostNetwork, runRequest, within, Bool.and_eq_true, decide_eq_true_eq]
  constructor
  · rintro ⟨⟨lo, hi⟩, hm⟩
    exact ⟨n / 3, by omega, by omega, by omega⟩
  · rintro ⟨k, lo, hi, rfl⟩
    exact ⟨⟨by omega, by omega⟩, by omega⟩

/-- A row accepts the lengths that the catalogue names for its kind: the table of R190 row by row, SET_CURVE
and POST_NETWORK by their own lemmas. -/
theorem lengths_iff_acceptsLength (n : Nat) : ∀ q ∈ allRequests, (q.lengths n = true ↔ acceptsLength q.code n) := by
  have curve : reqSetCurve.lengths n = true ↔ acceptsLength reqSetCurve.code n := curveLengths_iff n
  have post : reqPostNetwork.lengths n = true ↔ acceptsLength reqPostNetwork.code n := postLengths_iff n
  simp only [allRequests, List.cons_append, List.nil_append, List.forall_mem_cons, curve, post, true_and]
  simp [acceptsLength, lengthIn, configRequest, runRequest, serviceRequest, reqIdentify, reqGetState, reqFetchReports,
    reqRestart, reqStart, reqStop, reqSetReference, reqSetChannel, reqSetScan, reqSetMotion, reqSetGauge, reqSetWarning,
    reqSetLamp, reqSetPattern, reqSetLeaf, reqSetFreeze, reqRequestConversion, reqReadChannels, reqReadGauges,
    reqReadWarnings, reqReadDoors, reqReadFaults, reqReadDoorStats, reqAcknowledge, reqSetChimeFloor, reqClearLimits,
    reqEnterService, reqLeaveService, reqGaugeTest, reqLampTest, reqChimeTest, reqEndTests, reqReadRaw, reqClearFaults,
    reqResetDoorStats, reqWriteVehicleId]

end Sys2Proof.Machine
end

section
/-! PROOFS. The report queue under every operation (R9, R11), and what an owner's answer can be (R6, R7). -/

namespace Sys2Proof.Machine

set_option Elab.async false

/-! ## The report queue (R9) -/

/-- Whether a report queue is sound is read off the queue and the counter. -/
theorem Link.sound_congr {l m : Link} (hr : m.reports = l.reports) (hn : m.nextSeq = l.nextSeq) (h : l.sound) :
    m.sound := by
  unfold Link.sound at *
  rwa [hr, hn]

/-- A queue without its oldest reports is sound. -/
theorem Link.sound_drop {l m : Link} (n : Nat) (hr : m.reports = l.reports.drop n) (hn : m.nextSeq = l.nextSeq)
    (h : l.sound) : m.sound := by
  obtain ⟨len, seq⟩ := h
  unfold Link.sound
  simp only [hr, hn]
  refine ⟨by simp; omega, fun i hi => ?_⟩
  have hi' : n + i < l.reports.length := by simp at hi; omega
  have place : l.reports.length - (n + i) = (l.reports.drop n).length - i := by simp; omega
  rw [List.getElem_drop, seq _ hi', place]

/-- A sound queue with room takes a report and is sound. -/
theorem Link.sound_push {l m : Link} {r : Report} (h : l.sound) (room : l.reports.length < 64)
    (hr : m.reports = l.reports ++ [r]) (hs : r.seq = l.nextSeq) (hn : m.nextSeq = l.nextSeq + 1) : m.sound := by
  obtain ⟨-, seq⟩ := h
  unfold Link.sound
  simp only [hr, hn, List.length_append, List.length_singleton]
  refine ⟨by omega, fun i hi => ?_⟩
  rw [List.getElem_append]
  split
  · rename_i hlt
    have age : l.reports.length + 1 - i = l.reports.length - i + 1 := by omega
    rw [seq i hlt, age, BitVec.ofNat_add]
    bv_omega
  · have age : l.reports.length + 1 - i = 1 := by omega
    simp [hs, age]

/-- Placing a report keeps the queue sound. -/
theorem Link.place_sound {l : Link} (e : Event) (i : Nat) (v : Option Word16) (h : l.sound) : (l.place e i v).sound := by
  by_cases full : 64 ≤ l.reports.length
  · have kept : ({ l with reports := l.reports.drop 1 } : Link).sound := Link.sound_drop 1 rfl rfl h
    exact Link.sound_push kept (by have := h.1; simp; omega) (by rw [Link.place_reports, if_pos full]) rfl rfl
  · exact Link.sound_push h (by omega) (by rw [Link.place_reports, if_neg full]) rfl rfl

/-- What places reports alone keeps the queue sound. -/
theorem Only.queue_sound {bs : List Part} {s t : State} (h : Only bs s t) (hs : s.li.sound) : t.li.sound :=
  h.placed.induct Link.sound hs fun _ e i v hl => Link.place_sound e i v hl

/-! ## Answers of the owners (R6, R7) -/

/-- An owner's answer: accepted with a payload, the report queue kept sound, or refused with the state as it was. -/
inductive Answers (s : State) : Answer → Prop where
  | accepted {t : State} (payload : List Byte) (queue : s.li.sound → t.li.sound) : Answers s (t, .positive payload)
  | refused (reason : Reason) : Answers s (s, .refused reason)
  | badConfig (item : ItemClass) (number : Nat) : Answers s (s, .badConfig item number)

namespace Answers

variable {s t : State}

theorem ofOnly {bs : List Part} (h : Only bs s t) (payload : List Byte) : Answers s (t, .positive payload) :=
  accepted payload h.queue_sound

theorem same (payload : List Byte) : Answers s (s, .positive payload) := accepted payload id

theorem ite {p : Prop} [Decidable p] {a b : Answer} (ha : Answers s a) (hb : Answers s b) :
    Answers s (if p then a else b) := by
  split
  · exact ha
  · exact hb

theorem parsed {α : Type} {x : Option α} {f : α → Answer} (h : ∀ a, Answers s (f a)) :
    Answers s (Machine.parsed x f s) := by
  unfold Machine.parsed
  split
  · exact h _
  · exact refused _

end Answers

section
variable (p : List Byte) (s : State)

theorem identify_answers : Answers s (identify p s) := .same _
theorem getState_answers : Answers s (getState p s) := .same _
theorem fetchReports_answers : Answers s (fetchReports p s) :=
  .ite (.refused _) (.accepted _ fun h => Link.sound_drop (u8 p 0) rfl rfl h)
theorem restart_answers : Answers s (restart s) := .accepted _ fun h => Link.sound_congr rfl rfl h

theorem fixConfiguration_only : Only controlParts s (fixConfiguration s) := by
  unfold fixConfiguration
  exact Only.trans (modDm_only s _).mono (modSc_only _ _).mono

theorem start_answers : Answers s (start s) := by
  unfold start
  split
  · exact .badConfig _ _
  · exact .ofOnly ((fixConfiguration_only s).trans (Only.ite (enterRun_only _) (enterParked_only _))) _

theorem stop_answers : Answers s (stop s) :=
  .ite (.ofOnly (stopFromParked_only s) _) (.ite (.refused _) (.ofOnly (stopFromRun_only s) _))

theorem setReference_answers : Answers s (setReference p s) := .ite (.ofOnly (modCi_only s _) _) (.refused _)

theorem putWired_answers (ch : Fin 24) (cfg : WiredCfg) : Answers s (putWired ch cfg s) :=
  .ofOnly (bs := .ci :: faultParts) ((modWired_only s ch _).mono.trans (setPresence_only _ _ _).mono) _

theorem setWired_answers (ch : Fin 24) : Answers s (setWired ch p s) := by
  unfold setWired
  split
  · exact .refused _
  · exact putWired_answers s ch _
  · exact .ite (.refused _) (.parsed fun cfg => putWired_answers s ch cfg)

theorem putNet_answers (n : Fin 16) (cfg : NetCfg) : Answers s (putNet n cfg s) :=
  .ofOnly (bs := .ci :: faultParts) ((modNet_only s n _).mono.trans (setPresence_only _ _ _).mono) _

theorem setNet_answers (n : Fin 16) : Answers s (setNet n p s) :=
  .ite (putNet_answers s n _) (.ite (.refused _) (.ite (.refused _) (.ite (.refused _) (putNet_answers s n _))))

theorem setChannel_answers : Answers s (setChannel p s) := by
  unfold setChannel
  split
  · exact .refused _
  · split
    · exact setWired_answers p s _
    · exact setNet_answers p s _
    · exact .refused _

theorem setScan_answers : Answers s (setScan p s) := .parsed fun _ => .ofOnly (modCu_only s _) _
theorem setMotion_answers : Answers s (setMotion p s) := .parsed fun _ => .ofOnly (modCi_only s _) _
theorem setGauge_answers : Answers s (setGauge p s) :=
  .parsed fun g => .ite (.ofOnly (modGauge_only s g _) _) (.parsed fun _ => .ofOnly (modGauge_only s g _) _)
theorem setCurve_answers : Answers s (setCurve p s) := .parsed fun g => .ofOnly (modGauge_only s g _) _
theorem putWarning_answers (w : Fin 64) (d : Option WarnDef) : Answers s (putWarning w d s) := .ofOnly (modWm_only s _) _
theorem setWarning_answers : Answers s (setWarning p s) :=
  .parsed fun w => .ite (putWarning_answers s w _)
    (.parsed fun _ => .ite (.refused _) (.parsed fun _ => putWarning_answers s w _))
theorem setLamp_answers : Answers s (setLamp p s) := .parsed fun _ => .parsed fun _ => .ofOnly (modAo_only s _) _
theorem setPattern_answers : Answers s (setPattern p s) :=
  .parsed fun _ => .ite (.ofOnly (modAo_only s _) _) (.parsed fun _ => .ofOnly (modAo_only s _) _)

theorem putLeaf_answers (i : Fin 8) (cfg : Option LeafCfg) : Answers s (putLeaf i cfg s) := by
  have begun : Only doorParts s (s.modLeaf i fun _ => Leaf.fresh cfg) := (modLeaf_only s i _).mono
  have reported (t : State) : Only doorParts t
      (if s.dm.leaves[i].state = .unknown then t else report .leafState i.val (val LeafState.unknown.code) t) :=
    Only.ite (Only.refl _ _) (report_only _ _ _ _).mono
  have doorways (ws : List (Fin 4)) (t : State) : Only doorParts t
      (forEach (fun w t => if w ∈ ws then deriveDoorway w t else t) t) :=
    Only.forEach fun w t => Only.ite (deriveDoorway_only t w).mono (Only.refl _ _)
  exact .ofOnly ((((begun.trans (reported _)).trans (doorways _ _)).andThen (setPresence_only _ _ _)).andThen
    (setPresence_only _ _ _)) _

theorem setLeaf_answers : Answers s (setLeaf p s) :=
  .parsed fun i => .ite (putLeaf_answers s i _) (.parsed fun _ => putLeaf_answers s i _)
theorem setFreeze_answers : Answers s (setFreeze p s) := .parsed fun _ => .ofOnly (modFm_only s _) _
theorem postRequest_answers : Answers s (postRequest p s) := .ofOnly (postNetwork_only s _) _
theorem requestConversion_answers : Answers s (requestConversion p s) :=
  .parsed fun ch => .ite (.refused _) (.ofOnly (queuePrio_only s ch _) _)
theorem readChannels_answers : Answers s (readChannels p s) := .ite (.same _) (.refused _)
theorem readGauges_answers : Answers s (readGauges p s) := .ite (.same _) (.refused _)
theorem readWarnings_answers : Answers s (readWarnings p s) := .ite (.same _) (.refused _)
theorem readDoors_answers : Answers s (readDoors p s) := .same _
theorem readFaults_answers : Answers s (readFaults p s) := .ite (.same _) (.refused _)
theorem readDoorStats_answers : Answers s (readDoorStats p s) := .ite (.same _) (.refused _)
theorem acknowledged_answers (w : Fin 64) (d : WarnDef) : Answers s (acknowledged w d s) :=
  .ofOnly (acknowledge_only s w d) _

theorem acknowledgeRequest_answers : Answers s (acknowledgeRequest p s) := by
  unfold acknowledgeRequest
  split
  · split
    · split
      · exact acknowledged_answers s _ _
      · exact .same _
    · exact .same _
  · refine .parsed fun w => ?_
    split
    · exact acknowledged_answers s w _
    · exact .refused _

theorem setChimeFloor_answers : Answers s (setChimeFloor p s) :=
  .parsed fun _ => .ofOnly (bs := [.wm, .ao]) ((modWm_only s _).mono.andThen (takeFloor_only _)) _
theorem clearLimits_answers : Answers s (clearLimits p s) :=
  .ofOnly (bs := [.ci, .ge]) ((modCi_only s _).mono.andThen (modGe_only _ _)) _
theorem enterService_answers : Answers s (enterService p s) :=
  .ite (.refused _) (.ite (.same _)
    (.ofOnly (bs := [.reports, .sc, .service]) ((modSc_only s _).mono.andThen (report_only _ _ _ _)) _))
theorem leaveService_answers : Answers s (leaveService p s) := .ite (.ofOnly (endSession_only s _) _) (.same _)

theorem startGaugeTest_only (g : Fin 8) (pos : Nat) : Only [.reports, .ge] s (startGaugeTest g pos s) := by
  unfold startGaugeTest
  split
  · exact (modGauge_only s g _).mono.andThen (setPointer_only _ _ _)
  · exact (modGauge_only s g _).mono
  · exact Only.refl _ _

theorem gaugeTest_answers : Answers s (gaugeTest p s) := by
  refine .parsed fun g => .parsed fun r => .ite (.refused _) ?_
  split
  · exact .refused _
  · exact .refused _
  · exact .refused _
  · exact .ofOnly (startGaugeTest_only s g _) _

theorem lampTest_answers : Answers s (lampTest p s) :=
  .parsed fun _ => .ofOnly ((modAo_only s _).trans (refreshLamps_only _)) _
theorem chimeTest_answers : Answers s (chimeTest p s) :=
  .parsed fun _ => .ite (.refused _) (.ofOnly ((modAo_only s _).trans (deriveChime_only _)) _)
theorem endTestsRequest_answers : Answers s (endTestsRequest p s) := .ite (.ofOnly (endTests_only s _) _) (.same _)
theorem readRaw_answers : Answers s (readRaw p s) := .parsed fun _ => .same _
theorem clearFaultsRequest_answers : Answers s (clearFaultsRequest p s) :=
  .ite (.refused _) (.ofOnly (clearFaults_only s) _)
theorem resetDoorStats_answers : Answers s (resetDoorStats p s) :=
  .parsed fun _ => .ofOnly (bs := [.dm, .jc]) ((modDm_only s _).mono.andThen (queueDoorStats_only _)) _
theorem writeVehicleId_answers : Answers s (writeVehicleId p s) :=
  .ite (.refused _) (.ite (.refused _) (.ite (.refused _)
    (.ofOnly ((modJc_only s _).trans (queueRecord_only _ _)) _)))

end

/-- Every owner accepts or refuses, and a refusal leaves the state as it was. -/
theorem act_answers (p : List Byte) (s : State) : ∀ q ∈ allRequests, Answers s (q.act p s) := by
  simp only [allRequests, List.cons_append, List.nil_append, List.forall_mem_cons, List.not_mem_nil, false_implies,
    implies_true, and_true]
  exact ⟨identify_answers p s, getState_answers p s, fetchReports_answers p s, restart_answers s, start_answers s,
    stop_answers s, setReference_answers p s, setChannel_answers p s, setScan_answers p s, setMotion_answers p s,
    setGauge_answers p s, setCurve_answers p s, setWarning_answers p s, setLamp_answers p s, setPattern_answers p s,
    setLeaf_answers p s, setFreeze_answers p s, postRequest_answers p s, requestConversion_answers p s,
    readChannels_answers p s, readGauges_answers p s, readWarnings_answers p s, readDoors_answers p s,
    readFaults_answers p s, readDoorStats_answers p s, acknowledgeRequest_answers p s, setChimeFloor_answers p s,
    clearLimits_answers p s, enterService_answers p s, leaveService_answers p s, gaugeTest_answers p s,
    lampTest_answers p s, chimeTest_answers p s, endTestsRequest_answers p s, readRaw_answers p s,
    clearFaultsRequest_answers p s, resetDoorStats_answers p s, writeVehicleId_answers p s⟩

/-! ## What a request row leaves (R5 to R7) -/

/-- Everything a request row answers: it is discarded, or a reply goes out after the owner accepted, or a refusal does with
the state as it was. -/
inductive Served (q : Request) (tag : Byte) (s : State) : State → Prop where
  | discarded (busy : ¬ s.taking) : Served q tag s s
  | accepted {t : State} (payload : List Byte) (taken : s.taking) (queue : s.li.sound → t.li.sound) :
      Served q tag s (sendReply q.code tag (.positive payload) t)
  | refused (reason : Reason) (taken : s.taking) : Served q tag s (sendReply q.code tag (.refused reason) s)
  | badConfig (item : ItemClass) (number : Nat) (taken : s.taking) :
      Served q tag s (sendReply q.code tag (.badConfig item number) s)

theorem serve_served {q : Request} (hq : q ∈ allRequests) (tag : Byte) (p : List Byte) (s : State) :
    Served q tag s (q.serve tag p s) := by
  obtain ⟨busy, e⟩ | ⟨taken, -, e⟩ | ⟨taken, -, -, e⟩ | ⟨taken, -, -, -, -, e⟩ | ⟨taken, -, -, -, e⟩ :=
    q.serve_cases tag p s
  · rw [e]; exact .discarded busy
  · rw [e]; exact .refused _ taken
  · rw [e]; exact .refused _ taken
  · rw [e]; exact .refused _ taken
  · rw [e]
    have answered := act_answers p s q hq
    generalize q.act p s = a at answered ⊢
    cases answered with
    | accepted payload queue => exact .accepted payload taken queue
    | refused reason => exact .refused reason taken
    | badConfig item number => exact .badConfig item number taken

/-- A request row keeps the report queue sound. -/
theorem serve_queue_sound {q : Request} (hq : q ∈ allRequests) (tag : Byte) (p : List Byte) {s : State}
    (h : s.li.sound) : (q.serve tag p s).li.sound := by
  have served := serve_served hq tag p s
  generalize q.serve tag p s = t at served ⊢
  cases served with
  | discarded => exact h
  | accepted payload _ queue => exact Link.sound_congr rfl rfl (queue h)
  | refused => exact Link.sound_congr rfl rfl h
  | badConfig => exact Link.sound_congr rfl rfl h

end Sys2Proof.Machine
end

section
/-! PROOFS. Frames and characters (R1 to R5): what a completed frame does, and the state it leaves. -/

namespace Sys2Proof.Machine

set_option Elab.async false

section
variable {s : State}

/-! ## A completed frame -/

/-- A good frame of a row's code has the row's effect. -/
theorem frameAnswer_request {q : Request} (hq : q ∈ allRequests) {kind : Byte} (hk : q.code = kind.toNat) (tag : Byte)
    (p : List Byte) (taken : s.taking) : frameAnswer kind tag p true s = q.serve tag p s := by
  have found := find_request hq
  rw [hk] at found
  simp only [frameAnswer, found, Request.serve, if_pos taken, Bool.not_true, Bool.false_eq_true, if_false]

/-- A good frame of an undefined kind is answered UNKNOWN_KIND. -/
theorem frameAnswer_unknown {kind : Byte} (hk : kind.toNat ∉ requestKinds) (tag : Byte) (p : List Byte) :
    frameAnswer kind tag p true s = sendReply kind.toNat tag (.refused .unknownKind) s := by
  simp [frameAnswer, find_request_none hk]

/-- A frame whose check value differs is answered BAD_FRAME. -/
theorem frameAnswer_bad (kind tag : Byte) (p : List Byte) :
    frameAnswer kind tag p false s = sendReply kind.toNat tag (.refused .badFrame) s := rfl

/-- Everything a taken frame can do. -/
theorem frameAnswer_cases (kind tag : Byte) (p : List Byte) (good : Bool) (taken : s.taking) :
    (∃ reason, frameAnswer kind tag p good s = sendReply kind.toNat tag (.refused reason) s) ∨
    ∃ q ∈ allRequests, q.code = kind.toNat ∧ frameAnswer kind tag p good s = q.serve tag p s := by
  cases good
  · exact .inl ⟨_, frameAnswer_bad kind tag p⟩
  by_cases hk : kind.toNat ∈ requestKinds
  · rw [← codes_eq_requestKinds, List.mem_map] at hk
    obtain ⟨q, hq, hc⟩ := hk
    exact .inr ⟨q, hq, hc, frameAnswer_request hq hc tag p taken⟩
  · exact .inl ⟨_, frameAnswer_unknown hk tag p⟩

/-- A completed frame leaves the receiver HUNTING, and is discarded or taken. -/
theorem frameComplete_cases (chars : List Byte) (s : State) :
    (¬ s.taking ∧ frameComplete chars s = s.hunting) ∨
    (s.taking ∧ ∃ kind tag p good, frameComplete chars s = frameAnswer kind tag p good s.hunting) := by
  by_cases taken : s.taking
  · exact .inr ⟨taken, _, _, _, _, if_pos taken⟩
  · exact .inl ⟨taken, if_neg taken⟩

/-- The characters of a frame: LENGTH counts KIND, TAG and payload, and the check value is compared with theirs. -/
theorem frameComplete_frame (s : State) {len : Byte} (kind tag lo hi : Byte) {p : List Byte}
    (hlen : len.toNat = p.length + 2) :
    frameComplete (len :: kind :: tag :: p ++ [lo, hi]) s =
      if s.taking then
        frameAnswer kind tag p (decide (lo.toNat + 256 * hi.toNat = (crc16 (len :: kind :: tag :: p)).toNat)) s.hunting
      else s.hunting := by
  have counted : (len :: kind :: tag :: p ++ [lo, hi]).take (len.toNat + 1) = len :: kind :: tag :: p :=
    List.take_left' (by simp [hlen])
  have check : u16 (len :: kind :: tag :: p ++ [lo, hi]) (len.toNat + 1) = lo.toNat + 256 * hi.toNat := by
    simp [u16, u8, hlen, List.getD]
  have first : u8 (len :: kind :: tag :: p ++ [lo, hi]) 0 = len.toNat := rfl
  unfold frameComplete
  simp only [first, counted, check]
  rfl

/-- Characters that LENGTH and two CHECK characters bound have the shape of a frame. -/
theorem exec_frameComplete_frame (s : State) {len : Byte} (kind tag lo hi : Byte) {p : List Byte} (hp : p.length ≤ 248)
    (hlen : len.toNat = p.length + 2) :
    exec (.frameComplete (len :: kind :: tag :: p ++ [lo, hi])) s =
      .next (frameComplete (len :: kind :: tag :: p ++ [lo, hi]) s) := by
  have shape : frameShape (len :: kind :: tag :: p ++ [lo, hi]) = true := by
    simp [frameShape, hlen]; omega
  exact nextIf_pos shape _ _

end

/-! ## The receiver (R2, R3) -/

section
variable {s : State} (b : Byte)

theorem exec_character (s : State) : exec (.characterReceived b) s = .next (characterArrives b s) := rfl

/-- In HUNTING a character is examined for SYNC. -/
theorem characterArrives_hunting (h : s.li.receiver = .hunting) : characterArrives b s = huntSync b s := by
  simp [characterArrives, h]

/-- After a gap of more than 3 ms a character finds the receiver HUNTING. -/
theorem characterArrives_late (h : s.li.receiver = .assembling) (gap : 3 < s.li.gapMs) :
    characterArrives b s = huntSync b s.hunting := by
  simp only [characterArrives, h, if_pos gap]
  rfl

/-- Within the gap a character joins the frame. -/
theorem characterArrives_intime (h : s.li.receiver = .assembling) (gap : s.li.gapMs ≤ 3) :
    characterArrives b s = assemble b s := by
  simp only [characterArrives, h, if_neg (Nat.not_lt.mpr gap)]

/-- A LENGTH below 2 or above 250 abandons the frame. -/
theorem assemble_badLength (h : s.li.buffer = []) (bad : b.toNat < 2 ∨ 250 < b.toNat) : assemble b s = s.hunting := by
  have first : u8 [b] 0 = b.toNat := rfl
  simp only [assemble, h, List.nil_append, first, if_pos bad]
  rfl

/-- A character within the frame joins the buffer; the frame's last completes it. -/
theorem assemble_inside {len : Byte} {rest : List Byte} (hc : s.li.buffer ++ [b] = len :: rest) (lo : 2 ≤ len.toNat)
    (hi : len.toNat ≤ 250) :
    assemble b s = if rest.length = len.toNat + 2 then frameComplete (len :: rest) s
      else { s with li := { s.li with buffer := len :: rest, gapMs := 0 } } := by
  have first : u8 (len :: rest) 0 = len.toNat := rfl
  have inside : ¬ (len.toNat < 2 ∨ 250 < len.toNat) := by omega
  have last : (len :: rest).length = len.toNat + 3 ↔ rest.length = len.toNat + 2 := by simp
  simp only [assemble, hc, first, if_neg inside, last]
  rfl

end

section
variable {s : State}

/-! ## The report queue under frames and characters -/

/-- A completed frame keeps the report queue sound. -/
theorem frameComplete_queue_sound (chars : List Byte) (h : s.li.sound) : (frameComplete chars s).li.sound := by
  have hunting : s.hunting.li.sound := Link.sound_congr rfl rfl h
  obtain ⟨-, e⟩ | ⟨taken, kind, tag, p, good, e⟩ := frameComplete_cases chars s
  · exact e ▸ hunting
  · rw [e]
    obtain ⟨reason, e⟩ | ⟨q, hq, -, e⟩ := frameAnswer_cases kind tag p good (s := s.hunting) taken
    · exact e ▸ Link.sound_congr rfl rfl hunting
    · exact e ▸ serve_queue_sound hq _ _ hunting

theorem huntSync_queue_sound (b : Byte) (h : s.li.sound) : (huntSync b s).li.sound := by
  unfold huntSync
  split
  · exact Link.sound_congr rfl rfl h
  · exact h

/-- A received character keeps the report queue sound. -/
theorem characterArrives_queue_sound (b : Byte) (h : s.li.sound) : (characterArrives b s).li.sound := by
  have abandoned : (abandonFrame s).li.sound := Link.sound_congr rfl rfl h
  unfold characterArrives
  split
  · exact huntSync_queue_sound b h
  · split
    · exact huntSync_queue_sound b abandoned
    · unfold assemble
      dsimp only
      split
      · exact abandoned
      · split
        · exact frameComplete_queue_sound _ h
        · exact Link.sound_congr rfl rfl h

end

end Sys2Proof.Machine
end

section
/-! PROOFS. Every command keeps the report queue at 64 reports with consecutive sequences (R9). -/

namespace Sys2Proof.Machine

set_option Elab.async false

/-- A command's outcome is a next state whose report queue is sound where it was before. -/
def KeepsQueue (s : State) (o : Host.Outcome State Fault Refusal) : Prop :=
  ∃ t, o = .next t ∧ (s.li.sound → t.li.sound)

namespace KeepsQueue

variable {s t : State}

theorem next (h : s.li.sound → t.li.sound) : KeepsQueue s (.next t) := ⟨t, rfl, h⟩

theorem idle (s : State) : KeepsQueue s (.next s) := next id

theorem acts {p : Bool} (h : s.li.sound → t.li.sound) : KeepsQueue s (nextIf p t s) := by
  refine next fun hs => ?_
  split
  · exact h hs
  · exact hs

theorem actsOnly {p : Bool} {bs : List Part} (h : Only bs s t) : KeepsQueue s (nextIf p t s) := acts h.queue_sound

end KeepsQueue

section
variable (s : State)

/-! ## Commands of the line, the resets and time -/

theorem resetPart_queue_sound (lrateHigh : Bool) (jc : Journal) : (resetPart lrateHigh jc s).li.sound :=
  ⟨Nat.zero_le _, fun _ h => absurd h (Nat.not_lt_zero _)⟩

theorem rebuilt_queue_sound (h : s.li.sound) : (rebuilt s).li.sound := by
  have handed (t : State) (f : List FaultEntry) : Only [.fm, .jc, .reports] t (reportState (jcChoose (takeEntries f t))) :=
    Only.trans (Only.trans (takeEntries_only t f).mono (jcChoose_only _).mono) (reportState_only _).mono
  exact (handed _ _).queue_sound (Link.sound_congr rfl rfl h)

theorem tickAll_queue_sound (h : s.li.sound) : (tickAll s).li.sound := by
  have hr : (tickAll s).li.reports = s.li.reports := by unfold tickAll; dsimp only; split <;> split <;> rfl
  have hn : (tickAll s).li.nextSeq = s.li.nextSeq := by unfold tickAll; dsimp only; split <;> split <;> rfl
  exact Link.sound_congr hr hn h

/-! ## Conversion -/

theorem loopChanges_only (ch : Fin 24) (ohms : Nat) : Only controlParts s (loopChanges ch ohms s) := by
  unfold loopChanges
  refine Only.trans (modCu_only s _).mono (Only.ite (Only.refl _ _) (Only.ite (Only.refl _ _) ?_))
  exact Only.trans (modCu_only _ _).mono (Only.ite (latchSet_only _ _) (Only.refl _ _))

theorem gateOpen_keepsQueue : KeepsQueue s (execGateOpen s) := by
  unfold execGateOpen
  split
  · exact .actsOnly (modCu_only s _)
  · exact .idle s

theorem conversionComplete_keepsQueue (periods pin bias : Nat) :
    KeepsQueue s (execConversionComplete periods pin bias s) := by
  unfold execConversionComplete
  split
  · exact .actsOnly (bs := controlParts) ((completeConversion_only s _ _).mono.trans (afterConversion_only _ _ _))
  · exact .idle s

theorem gaugeUpdate_keepsQueue (g : Fin 8) : KeepsQueue s (execGaugeUpdate g s) := by
  unfold execGaugeUpdate
  split
  · exact .actsOnly ((modGauge_only s g _).mono.trans (pointerUpdate_only _ _ _))
  · exact .idle s

/-! ## The array -/

theorem freeArray_only : Only [.jc] s (freeArray s) := modJc_only s _

theorem recordDone_only (op : ArrayOp) : Only faultParts s (recordDone op s) := by
  have freed : Only faultParts s (freeArray (s.modJc (·.finish op))) :=
    Only.trans (modJc_only s _).mono (freeArray_only _).mono
  unfold recordDone
  dsimp only
  split
  · exact (freed.trans (recordProgrammed_only _ _)).andThen (jcChoose_only _)
  · exact freed.andThen (jcChoose_only _)

theorem recordProgramComplete_keepsQueue : KeepsQueue s (execRecordProgramComplete s) := by
  unfold execRecordProgramComplete
  split
  · exact .actsOnly (modJc_only s _)
  · exact .actsOnly (modJc_only s _)
  · exact .actsOnly (recordDone_only s _)
  · exact .actsOnly (recordDone_only s _)
  · exact .idle s

theorem headerDone_only (x : Fin 4) : Only [.jc] s (headerDone x s) := by
  unfold headerDone
  exact (((modJc_only s _).trans (freeArray_only _)).trans (modJc_only _ _)).trans (jcChoose_only _)

theorem headerProgramComplete_keepsQueue : KeepsQueue s (execHeaderProgramComplete s) := by
  unfold execHeaderProgramComplete
  split
  · exact .actsOnly (modJc_only s _)
  · exact .actsOnly (headerDone_only s _)
  · exact .idle s

theorem eraseDone_only (tail : Fin 4) : Only [.jc, .reports] s (eraseDone tail s) := by
  unfold eraseDone
  exact Only.andThen (Only.trans ((freeArray_only s).trans (modJc_only _ _)).mono (report_only _ _ _ _).mono)
    (jcChoose_only _)

theorem eraseComplete_keepsQueue : KeepsQueue s (execEraseComplete s) := by
  unfold execEraseComplete
  split
  · exact .actsOnly (eraseDone_only s _)
  · exact .idle s

theorem rowDone_queue_sound (seq : Nat) (chars : List Byte) (h : s.li.sound) : (rowDone seq chars s).li.sound := by
  have handed (t : State) : Only [.jc, .reports] t (jcChoose (report .vehicleIdWritten 0 none t)) :=
    Only.andThen (report_only t _ _ _).mono (jcChoose_only _)
  exact (handed _).queue_sound (Link.sound_congr rfl rfl h)

theorem rowProgramComplete_keepsQueue : KeepsQueue s (execRowProgramComplete s) := by
  unfold execRowProgramComplete
  split
  · exact .actsOnly (modJc_only s _)
  · exact .acts (rowDone_queue_sound s _ _)
  · exact .idle s

end

/-! ## Every command -/

/-- A request command keeps the report queue. -/
theorem request_keepsQueue {i : Instr} {kind : Nat} {tag : Byte} {p : List Byte} (s : State)
    (h : i.asRequest = some (kind, tag, p)) : KeepsQueue s (exec i s) := by
  obtain ⟨q, e, -, hq⟩ := exec_eq_serve h
  exact ⟨_, e s, serve_queue_sound hq tag p⟩

/-- Every command answers a next state, and keeps the report queue sound. -/
theorem exec_keepsQueue (c : Instr) (s : State) : KeepsQueue s (exec c s) := by
  cases c with
  | hardReset lrateHigh => exact .next fun _ => resetPart_queue_sound s _ _
  | softRestart lrateHigh => exact .acts fun _ => resetPart_queue_sound s _ _
  | rebuildComplete => exact .acts (rebuilt_queue_sound s)
  | lineFault | frameGapTimeout => exact .acts (Link.sound_congr rfl rfl)
  | frameComplete chars => exact .acts (frameComplete_queue_sound chars)
  | replySent => exact .next (Link.sound_congr rfl rfl)
  | characterReceived b => exact .next (characterArrives_queue_sound b)
  | tripClockTick => exact .next (tickAll_queue_sound s)
  | ignChange high => exact .actsOnly (modSc_only s _)
  | ignitionOnConfirmed => exact .actsOnly (ignitionOn_only s)
  | ignitionOffConfirmed => exact .actsOnly (ignitionOff_only s)
  | shutdownComplete => exact .actsOnly (completeShutdown_only s)
  | operatingSecond => exact .actsOnly (operatingSecond_only s)
  | comparatorEvent ch ohms => exact .next (loopChanges_only s ch ohms).queue_sound
  | watchSettleEnd => exact .actsOnly (watchSettled_only s)
  | watchQuiet => exact .actsOnly (watchQuiet_only s)
  | pathReady => exact .actsOnly ((modCu_only s _).trans (startElement_only _ _))
  | gateOpen => exact gateOpen_keepsQueue s
  | conversionComplete periods pin bias => exact conversionComplete_keepsQueue s periods pin bias
  | freshnessExpiry n | lostTimerExpiry n | initialTimerExpiry n => exact .actsOnly (netExpired_only s n _)
  | standstillTimerExpiry => exact .actsOnly (standstillExpired_only s)
  | gaugeUpdate g => exact gaugeUpdate_keepsQueue s g
  | delayExpiry w | reAlert w => exact .actsOnly (enterActive_only s w)
  | envelopeStep => exact .actsOnly (generatorStep_only s _)
  | bulbCheckEnd => exact .actsOnly ((modAo_only s _).trans (refreshLamps_only _))
  | travelTimerExpiry i => exact .actsOnly (travelExpired_only s i)
  | lockTimerExpiry i => exact .actsOnly (lockExpired_only s i)
  | confirmTimerExpiry src => exact .actsOnly (confirmExpired_only s src)
  | recordProgramComplete => exact recordProgramComplete_keepsQueue s
  | headerProgramComplete => exact headerProgramComplete_keepsQueue s
  | eraseComplete => exact eraseComplete_keepsQueue s
  | rowProgramComplete => exact rowProgramComplete_keepsQueue s
  | identify | getState | fetchReports | restart | start | stop | setReference | setChannel | setScan | setMotion
  | setGauge | setCurve | setWarning | setLamp | setPattern | setLeaf | setFreeze | postNetwork | requestConversion
  | readChannels | readGauges | readWarnings | readDoors | readFaults | readDoorStats | acknowledge | setChimeFloor
  | clearLimits | enterService | leaveService | gaugeTest | lampTest | chimeTest | endTests | readRaw | clearFaults
  | resetDoorStats | writeVehicleId => exact request_keepsQueue s rfl

/-- Settles O4: a step runs the front command, and every command keeps the report queue, by placing reports, dropping
the oldest or emptying it. -/
theorem stepsKeepTheReportQueue : Obligations.StepsKeepTheReportQueue := by
  intro s t sound stepped
  unfold step at stepped
  split at stepped
  · cases stepped
    exact sound.link
  · rename_i c rest _
    obtain ⟨u, e, kept⟩ := exec_keepsQueue c { s with pending := rest }
    rw [e] at stepped
    cases stepped
    exact kept sound.link

end Sys2Proof.Machine
end

section
/-! PROOFS. Requests from frame to reply: frames stand for their rows, the order of the checks, one reply to each taken
request. -/

namespace Sys2Proof.Machine

set_option Elab.async false

/-! ## Replies as the catalogue writes them (R6, R7) -/

/-- The positive reply to a request. -/
theorem sendReply_positive (kind : Nat) (tag : Byte) (payload : List Byte) (s : State) :
    sendReply kind tag (.positive payload) s = s.replied kind tag payload := rfl

/-- A refusal. -/
theorem sendReply_refused (kind : Nat) (tag : Byte) (reason : Reason) (s : State) :
    sendReply kind tag (.refused reason) s = s.refused tag [reason.code] := rfl

/-- A refusal that names an item. -/
theorem sendReply_badConfig (kind : Nat) (tag : Byte) (item : ItemClass) (number : Nat) (s : State) :
    sendReply kind tag (.badConfig item number) s = s.refused tag [Reason.badConfig.code, item.code, number] := rfl

/-! ## Frames and their rows (R2, R4) -/

/-- The two CHECK characters carry the check value. -/
theorem check_roundtrip (c : Word16) :
    (BitVec.ofNat 8 c.toNat).toNat + 256 * (BitVec.ofNat 8 (c.toNat / 256)).toNat = c.toNat := by
  have := c.isLt
  simp only [BitVec.toNat_ofNat]
  omega

/-- A whole frame with a good check value has the effect of its kind's row. -/
theorem exec_frameChars {i : Instr} {kind : Nat} {tag : Byte} {p : List Byte} (h : i.asRequest = some (kind, tag, p))
    (hp : p.length ≤ 248) (s : State) :
    exec (.frameComplete (frameChars kind tag p)) s = exec i s.hunting := by
  obtain ⟨q, e, hc, hq⟩ := exec_eq_serve h
  have small : ∀ k ∈ requestKinds, k < 256 := by decide
  have hk : q.code = (BitVec.ofNat 8 kind).toNat := by
    have := small q.code (code_mem_requestKinds hq)
    rw [← hc, BitVec.toNat_ofNat, Nat.mod_eq_of_lt this]
  have hlen : (BitVec.ofNat 8 (p.length + 2)).toNat = p.length + 2 := by
    rw [BitVec.toNat_ofNat]; omega
  have shape : frameChars kind tag p = BitVec.ofNat 8 (p.length + 2) :: BitVec.ofNat 8 kind :: tag :: p ++
      b2 (crc16 (BitVec.ofNat 8 (p.length + 2) :: BitVec.ofNat 8 kind :: tag :: p)).toNat := rfl
  rw [shape, b2, exec_frameComplete_frame s _ _ _ _ hp hlen, frameComplete_frame s _ _ _ _ hlen, check_roundtrip, e]
  by_cases taken : s.taking
  · rw [if_pos taken, decide_eq_true rfl, frameAnswer_request hq hk tag p (show s.hunting.taking from taken)]
  · rw [if_neg taken, Request.serve, if_neg (show ¬ s.hunting.taking from taken)]

/-- The receiver while a frame is assembled: the characters so far, the gap timer at 0. -/
def State.assembling (s : State) (chars : List Byte) : State :=
  { s with li := { s.li with receiver := .assembling, buffer := chars, gapMs := 0 } }

/-- A character that is not the frame's last joins the buffer; with the last the frame completes. -/
theorem exec_character_assembling (s : State) (b : Byte) {len : Byte} {rest : List Byte} (chars : List Byte)
    (hc : chars ++ [b] = len :: rest) (lo : 2 ≤ len.toNat) (hi : len.toNat ≤ 250) :
    exec (.characterReceived b) (s.assembling chars) =
      .next (if rest.length = len.toNat + 2 then frameComplete (len :: rest) s else s.assembling (len :: rest)) := by
  rw [exec_character, characterArrives_intime b rfl (Nat.zero_le _), assemble_inside b hc lo hi]
  split <;> rfl

/-- The rest of a frame, received one character after another, completes it. -/
theorem runCommands_assembling (s : State) {len : Byte} {rest : List Byte} (lo : 2 ≤ len.toNat) (hi : len.toNat ≤ 250)
    (whole : rest.length = len.toNat + 2) (todo got : List Byte) (hne : todo ≠ []) (hs : got ++ todo = len :: rest) :
    runCommands (todo.map .characterReceived) (s.assembling got) = .next (frameComplete (len :: rest) s) := by
  induction todo generalizing got with
  | nil => exact absurd rfl hne
  | cons b todo ih =>
    obtain ⟨got', hg⟩ : ∃ got', got ++ [b] = len :: got' := by
      cases got with
      | nil => exact ⟨[], by simpa using (List.cons.inj hs).1⟩
      | cons g got => exact ⟨got ++ [b], by simpa using (List.cons.inj hs).1⟩
    have hr : rest = got' ++ todo := by
      have : len :: (got' ++ todo) = len :: rest := by rw [← List.cons_append, ← hg, ← hs]; simp
      exact (List.cons.inj this).2.symm
    rw [List.map_cons, runCommands, exec_character_assembling s b got hg lo hi]
    cases todo with
    | nil =>
      have done : got'.length = len.toNat + 2 := by rw [← whole, hr]; simp
      rw [if_pos done, hr]
      simp [runCommands]
    | cons c todo =>
      have more : got'.length ≠ len.toNat + 2 := by rw [← whole, hr]; simp
      rw [if_neg more]
      exact ih (len :: got') (by simp) (by rw [hr]; rfl)

/-- Settles O13: the frame's fields are those of the row, and the characters after SYNC rebuild the frame in the buffer. -/
theorem framesRunTheRequestOfTheirKind : Obligations.FramesRunTheRequestOfTheirKind := by
  refine ⟨fun i kind tag p s h hp => ?_, fun s chars hunting fits => ?_⟩
  · obtain ⟨q, e, -, -⟩ := exec_eq_serve h
    exact ⟨_, e _, (exec_frameChars h hp s).trans (e _)⟩
  · match chars, fits with
    | len :: rest, ⟨lo, hi, whole⟩ =>
      have sync : exec (.characterReceived syncByte) s = .next (s.assembling []) := by
        simp [exec, execCharacterReceived, characterArrives, hunting, huntSync, State.assembling, State.modLi]
      have shape : frameShape (len :: rest) = true := by simp [frameShape, lo, hi, whole]
      refine ⟨frameComplete (len :: rest) s, ?_, nextIf_pos shape _ _⟩
      rw [List.map_cons, runCommands, sync]
      exact runCommands_assembling s lo hi whole (len :: rest) [] (by simp) rfl

/-! ## The order of the checks (R5, R6, R190) -/

/-- Settles O15: the frame's own checks by `frameComplete_frame`, a row's checks by what the row can do. -/
theorem framesAndRequestsAreCheckedInOrder : Obligations.FramesAndRequestsAreCheckedInOrder := by
  refine ⟨fun s len kind tag lo hi p hp hlen => ?_, fun i kind tag p s h => ?_⟩
  · intro body agrees
    rw [exec_frameComplete_frame s _ _ _ _ hp hlen, frameComplete_frame s _ _ _ _ hlen]
    refine ⟨fun busy => by rw [if_neg busy], fun taken bad => ?_, fun taken good undefined => ?_⟩
    · rw [if_pos taken, decide_eq_false bad, frameAnswer_bad, sendReply_refused]
      rfl
    · rw [if_pos taken, decide_eq_true good, frameAnswer_unknown undefined, sendReply_refused]
      rfl
  · obtain ⟨q, e, rfl, hq⟩ := exec_eq_serve h
    have lengths := lengths_iff_acceptsLength p.length q hq
    have states := states_eq_acceptedIn s.sc.opState q hq
    have service := service_iff_serviceOnly q hq
    have answered (taken : s.taking) {reason : Reason} (hj : q.judge p s = refuse reason s) :
        exec i s = .next (s.refused tag [reason.code]) := by
      rw [e, Request.serve, if_pos taken, Request.answer, hj]
      rfl
    refine ⟨fun busy => by rw [e, Request.serve, if_neg busy], fun taken long => ?_, fun taken short wrong => ?_,
      fun taken short right only off => ?_⟩
    · have fails : q.lengths p.length = false := by simpa [← lengths] using long
      exact answered taken (reason := .badLength) (by simp [Request.judge, fails])
    · have passes : q.lengths p.length = true := lengths.mpr short
      have fails : q.states s.sc.opState = false := by rw [states, decide_eq_false wrong]
      exact answered taken (reason := .wrongState) (by simp [Request.judge, passes, fails])
    · have passes : q.lengths p.length = true := lengths.mpr short
      have accepts : q.states s.sc.opState = true := by rw [states, decide_eq_true right]
      exact answered taken (reason := .notInService) (by simp [Request.judge, passes, accepts, service.mpr only, off])

/-- Settles O16: everything a row can answer is a positive reply of its kind, or a refusal with the state as it was. -/
theorem everyTakenRequestIsAnsweredOnce : Obligations.EveryTakenRequestIsAnsweredOnce := by
  intro i kind tag p s h taken
  obtain ⟨q, e, rfl, hq⟩ := exec_eq_serve h
  refine ⟨_, e s, ?_⟩
  have served := serve_served hq tag p s
  generalize q.serve tag p s = t at served ⊢
  cases served with
  | discarded busy => exact absurd taken busy
  | accepted payload => exact .inl ⟨payload, rfl⟩
  | refused reason => exact .inr ⟨_, sendReply_refused _ _ _ _⟩
  | badConfig item number => exact .inr ⟨_, sendReply_badConfig _ _ _ _ _⟩

end Sys2Proof.Machine
end

section
/-! PROOFS. The requests that read: reports fetched, ATTN, and the snapshots with their fields. -/

namespace Sys2Proof.Machine

set_option Elab.async false

/-! ## Accepted requests -/

/-- A request that passes the three checks runs its owner, whose answer goes out. -/
theorem Request.serve_accepted (q : Request) (tag : Byte) {p : List Byte} {s : State} (taken : s.taking)
    (len : q.lengths p.length = true) (accepts : q.states s.sc.opState = true)
    (session : q.service = true → s.sc.service = true) :
    q.serve tag p s = sendReply q.code tag (q.act p s).2 (q.act p s).1 := by
  have judged : q.judge p s = q.act p s := by
    cases hs : q.service
    · simp [Request.judge, len, accepts, hs]
    · simp [Request.judge, len, accepts, session hs]
  rw [Request.serve, if_pos taken, Request.answer, judged]

/-! ## Fields of the catalogue -/

/-- A flag byte, the first flag in bit 0, as the sum of the powers of two of its set flags. -/
theorem flagBits_eq_flags (fs : List Bool) : flagBits fs = flags fs := by
  have sum : (fs.mapIdx fun i f => if f then 2 ^ i else 0).sum =
      fs.foldr (fun f n => (if f then 1 else 0) + 2 * n) 0 := by
    induction fs with
    | nil => rfl
    | cons f fs ih =>
      have doubled : (fs.mapIdx fun i f => if f = true then 2 ^ (i + 1) else 0) =
          (fs.mapIdx fun i f => if f = true then 2 ^ i else 0).map (2 * ·) := by
        apply List.ext_getElem <;> simp [Nat.pow_succ, Nat.mul_comm]
      rw [List.mapIdx_cons, List.sum_cons, doubled, List.sum_map_mul_left, List.map_id', List.foldr_cons, ih]
      simp
  rw [flagBits, flags, sum]

/-- The fields of a report (R193, R194). -/
theorem Report.bytes_eq (r : Report) :
    r.bytes = b2 r.seq.toNat ++ b4 r.time.toNat ++ b1 r.event.sourceCode ++ b1 r.event.code ++ b2 r.item ++
      b1 (if r.value.isSome then 1 else 0) ++ b2 (r.value.getD 0).toNat := by
  cases h : r.value <;> simp [Report.bytes, flags, h]

/-! ## Reports (R10, R11) -/

/-- FETCH_REPORTS outside STARTING runs its owner. -/
theorem exec_fetchReports {s : State} (tag b : Byte) (taken : s.taking) (ready : s.sc.opState ≠ .starting) :
    exec (.fetchReports tag [b]) s =
      .next (sendReply 0x03 tag (fetchReports [b] s).2 (fetchReports [b] s).1) :=
  congrArg _ (reqFetchReports.serve_accepted tag taken rfl (decide_eq_true ready) nofun)

/-- A max of 1 to 12 splits the queue there. -/
theorem fetchReports_eq (s : State) {b : Byte} (lo : 1 ≤ b.toNat) (hi : b.toNat ≤ 12) :
    fetchReports [b] s =
      (s.modLi fun l => { l with reports := s.li.reports.drop b.toNat },
        .positive (b1 (s.li.reports.take b.toNat).length ++ b1 (s.li.reports.drop b.toNat).length ++
          (s.li.reports.take b.toNat).flatMap Report.bytes)) := by
  have first : u8 [b] 0 = b.toNat := rfl
  simp [fetchReports, first, lo, hi]

/-- Settles O17: the owner splits the queue at the smaller of max and its length. -/
theorem fetchReportsRemovesTheOldest : Obligations.FetchReportsRemovesTheOldest := by
  intro s tag b taken ready
  rw [exec_fetchReports tag b taken ready]
  refine ⟨fun lo hi _ out left split len => ?_, fun bad => ?_⟩
  · have hout : s.li.reports.take b.toNat = out := by
      rw [List.take_eq_take_min, ← len, split, List.take_left]
    have hleft : s.li.reports.drop b.toNat = left := by
      have whole := List.take_append_drop b.toNat s.li.reports
      rw [hout] at whole
      exact List.append_cancel_left (whole.trans split)
    have bytes : Report.bytes = _ := funext Report.bytes_eq
    rw [fetchReports_eq s lo hi, hout, hleft, bytes]
    rfl
  · have first : u8 [b] 0 = b.toNat := rfl
    have out : fetchReports [b] s = refuse .badValue s := by
      simp only [fetchReports, first, within]
      exact if_pos (by simp; omega)
    rw [out]
    rfl

/-- ATTN is high exactly with a report held or in a watch wake. -/
theorem attn_iff (s : State) :
    s.attn = true ↔ s.li.reports ≠ [] ∨ (s.sc.opState = .parked ∧ s.sc.watch ≠ .quiet) := by
  simp [State.attn, State.waking]

/-- Settles O18: ATTN is read off the queue, which a report fills and the fetch of all that is left empties. -/
theorem attnFollowsTheQueueAndTheWake : Obligations.AttnFollowsTheQueueAndTheWake := by
  refine ⟨attn_iff, fun e item v s => ?_, fun s t tag b taken ready lo hi all quiet fetched => ?_⟩
  · rw [attn_iff, report_li, Link.place_reports]
    exact .inl (by simp)
  · rw [exec_fetchReports tag b taken ready, fetchReports_eq s lo hi] at fetched
    cases fetched
    rw [← Bool.not_eq_true, attn_iff]
    rintro (held | wake)
    · exact held (List.drop_eq_nil_iff.mpr all)
    · exact quiet wake

/-! ## Snapshots (R12, R13, R144, R186) -/

/-- The identity as the catalogue writes it. -/
theorem identity_eq (s : State) :
    s.identity = b2 0x00A7 ++ b2 0x2440 ++ b1 (65 + Config.revision.val) ++ s.jc.factory ++ b1 1 ++
      (match s.li.vehicleId with
        | some chars => b1 1 ++ chars
        | none => b1 0) := by
  cases h : s.li.vehicleId <;>
    simp [State.identity, bit, h, Config.vendorCode, Config.partCode, Config.journalFormat]

/-- The two fault flags of GET_STATE and READ_FAULTS. -/
theorem faultFlags_eq (f : FaultMem) :
    f.flagByte = b1 ((if f.full then 1 else 0) + (if f.clearPending then 2 else 0)) := by
  simp [FaultMem.flagByte, flags]

/-- The snapshot as the catalogue writes it. -/
theorem snapshot_eq (s : State) :
    s.snapshot = b1 s.sc.opState.code ++ b1 (if s.sc.service then 1 else 0) ++ b1 s.li.reports.length ++
      b1 s.fm.index.length ++ b1 ((if s.fm.full then 1 else 0) + (if s.fm.clearPending then 2 else 0)) ++
      b1 (if s.jc.reclaim = .idle then 0 else 1) ++ b1 s.jc.queue.length ++ b1 s.ci.motion.code ++
      b1 s.ci.supply.code ++ b2 s.sc.cycle ++ b4 s.sc.opSeconds := by
  have reclaim : flags [decide (s.jc.reclaim ≠ .idle)] = b1 (if s.jc.reclaim = .idle then 0 else 1) := by
    by_cases h : s.jc.reclaim = .idle <;> simp [flags, h]
  rw [State.snapshot, faultFlags_eq, reclaim]
  rfl

/-- The reading field of a slot as the catalogue writes it. -/
def Leaf.readingByte (l : Leaf) (slot : Fin 5) : List Byte :=
  match l.input slot, l.readings[slot] with
  | none, _ => b1 3
  | some _, .inactive => b1 0
  | some _, .active => b1 1
  | some _, .unknown => b1 2

theorem readingByte_eq (l : Leaf) (slot : Fin 5) : l.readingByte slot = b1 (l.readingCode slot) := by
  unfold Leaf.readingByte Leaf.readingCode
  cases l.input slot <;> cases l.readings[slot] <;> rfl

/-- A leaf that is not configured answers its number alone. -/
theorem entry_unconfigured {l : Leaf} (h : l.cfg = none) (i : Nat) : l.entry i = b1 i ++ List.replicate 11 0 := by
  simp [Leaf.entry, h]

/-- The fields of a configured leaf. -/
theorem entry_configured {l : Leaf} {c : LeafCfg} (h : l.cfg = some c) (i : Nat) :
    l.entry i = b1 i ++
      flagBits [true, l.lockFault, l.slow, l.cycleMark, l.travelT.isSome, l.lockT.isSome, l.closingT.isSome] ++
      b1 c.doorway.val ++ b1 l.state.code ++ l.readingByte slotClosed ++ l.readingByte slotLocked ++
      l.readingByte slotOpenEnd ++ l.readingByte slotEdge ++ l.readingByte slotRelease ++
      b2 (min 65535 (l.closingT.getD 0 / 10)) ++
      flagBits [l.conds.notSecure, l.conds.released, l.conds.obstructed, l.conds.fault] := by
  have slots : (List.finRange 5).flatMap (fun slot => b1 (l.readingCode slot)) =
      b1 (l.readingCode slotClosed) ++ b1 (l.readingCode slotLocked) ++ b1 (l.readingCode slotOpenEnd) ++
        b1 (l.readingCode slotEdge) ++ b1 (l.readingCode slotRelease) := rfl
  simp only [Leaf.entry, h, slots, flagBits_eq_flags, readingByte_eq, List.append_assoc]

theorem entry_length (l : Leaf) (i : Nat) : (l.entry i).length = 12 := by
  cases h : l.cfg with
  | none => simp [entry_unconfigured h, b1]
  | some c => simp [entry_configured h, readingByte_eq, flagBits, b1, b2]

/-- The three flags of a raw reading. -/
theorem flags_three (a b c : Bool) :
    flags [a, b, c] = b1 ((if a then 1 else 0) + (if b then 2 else 0) + (if c then 4 else 0)) := by
  rw [← flagBits_eq_flags]
  simp [flagBits, Nat.add_assoc]

/-- A byte that names a wired channel. -/
theorem wired_b1 (ch : Fin 24) : wired? (u8 (b1 ch.val) 0) = some ch := by
  have value : u8 (b1 ch.val) 0 = ch.val := by
    have := ch.isLt
    simp only [u8, b1, List.getD_cons_zero, BitVec.toNat_ofNat]
    omega
  simp [value, wired?, item?]

/-- The fields of READ_RAW for a channel with a result. -/
theorem readRaw_some {s : State} {ch : Fin 24} {r : ResultRecord} (h : s.cu.lastResult[ch] = some r) :
    readRaw (b1 ch.val) s = (s, .positive (b1 ch.val ++
      b1 (1 + (if r.saturated then 2 else 0) + (if s.cu.lastRef.isSome then 4 else 0)) ++ b2 r.count ++
      b1 r.level.code ++ b1 r.gate.val ++ b1 r.origin.code ++ b2 (s.cu.lastRef.getD 0))) := by
  simp [readRaw, parsed, wired_b1, h, flags_three]

/-- The fields of READ_RAW for a channel without one: zeros but for the reference. -/
theorem readRaw_none {s : State} {ch : Fin 24} (h : s.cu.lastResult[ch] = none) :
    readRaw (b1 ch.val) s = (s, .positive (b1 ch.val ++
      b1 (if s.cu.lastRef.isSome then 4 else 0) ++ [0, 0, 0, 0, 0] ++ b2 (s.cu.lastRef.getD 0))) := by
  simp [readRaw, parsed, wired_b1, h, flags_three]
  rfl

/-- A number above 23 names no wire. -/
theorem readRaw_refused (s : State) {b : Byte} (h : 24 ≤ b.toNat) : readRaw [b] s = refuse .badValue s := by
  have first : u8 [b] 0 = b.toNat := rfl
  have none : wired? (u8 [b] 0) = none := dif_neg (by omega)
  simp only [readRaw, parsed, none]

/-- Settles O21: each owner answers its fields from the state it leaves as it was. -/
theorem snapshotsAreAnsweredAndChangeNothing : Obligations.SnapshotsAreAnsweredAndChangeNothing := by
  refine ⟨fun s tag taken => ⟨?_, ?_⟩, fun s tag taken => ⟨fun running => ⟨?_, fun i => entry_length _ _, fun i =>
    ⟨fun h => entry_unconfigured h _, fun c h => entry_configured h _⟩⟩, fun state session => ?_⟩⟩
  · have served : exec (.identify tag []) s = .next (s.replied 0x01 tag s.identity) :=
      congrArg _ (reqIdentify.serve_accepted tag taken rfl rfl nofun)
    exact served.trans (congrArg (fun payload => Host.Outcome.next (s.replied 0x01 tag payload)) (identity_eq s))
  · rw [← snapshot_eq]
    exact congrArg _ (reqGetState.serve_accepted tag taken rfl rfl nofun)
  · exact congrArg _ (reqReadDoors.serve_accepted tag taken rfl (decide_eq_true running) nofun)
  · have accepts : inConfigOrRun s.sc.opState = true := by
      rcases state with h | h <;> rw [h] <;> rfl
    have served (b : Byte) : exec (.readRaw tag [b]) s =
        .next (sendReply 0x36 tag (readRaw [b] s).2 (readRaw [b] s).1) :=
      congrArg _ (reqReadRaw.serve_accepted tag taken rfl accepts fun _ => session)
    refine ⟨fun ch => ⟨fun h => ?_, fun r h => ?_⟩, fun b h => ?_⟩
    · rw [← sendReply_positive]
      exact (served _).trans (by rw [show [BitVec.ofNat 8 ch.val] = b1 ch.val from rfl, readRaw_none h])
    · rw [← sendReply_positive]
      exact (served _).trans (by rw [show [BitVec.ofNat 8 ch.val] = b1 ch.val from rfl, readRaw_some h])
    · rw [served, readRaw_refused s h]
      rfl

end Sys2Proof.Machine
end

section
/-! PROOFS. The events of the line: the receiver character by character, TXD bit by bit (R1 to R5). -/

namespace Sys2Proof.Machine

set_option Elab.async false

/-! ## TXD (R1) -/

/-- Bit `j` of character `k` stands at bit time `10 * k + j`. -/
theorem flatMap_charBits_getElem? (reply : List Byte) (k : Nat) {j : Nat} (hj : j < 10) :
    (reply.flatMap charBits)[10 * k + j]? = (reply[k]?).bind fun b => (charBits b)[j]? := by
  induction reply generalizing k with
  | nil => simp
  | cons b reply ih =>
    have ten : (charBits b).length = 10 := rfl
    rw [List.flatMap_cons]
    cases k with
    | zero => simp [List.getElem?_append_left, ten, hj]
    | succ k =>
      have past : 10 * (k + 1) + j - 10 = 10 * k + j := by omega
      rw [List.getElem?_append_right (by omega), ten, past, ih]
      rfl

/-- The level of TXD in a bit time of a character of the reply. -/
theorem txd_character {s : State} {reply : List Byte} (h : s.li.transmitter = .answering reply) {k : Nat} {b : Byte}
    (hb : reply[k]? = some b) {j : Nat} (hj : j < 10) : s.txd (10 * k + j) = ((charBits b)[j]?).getD true := by
  simp only [State.txd, State.txdBits, h, flatMap_charBits_getElem? reply k hj, hb, Option.bind_some]

/-- A reply takes ten bit times a character. -/
theorem flatMap_charBits_length (reply : List Byte) : (reply.flatMap charBits).length = 10 * reply.length := by
  induction reply with
  | nil => rfl
  | cons b reply ih =>
    have ten : (charBits b).length = 10 := rfl
    rw [List.flatMap_cons, List.length_append, ten, ih, List.length_cons]
    omega

/-- TXD rests high after the reply. -/
theorem txd_after {s : State} {reply : List Byte} (h : s.li.transmitter = .answering reply) {n : Nat}
    (hn : 10 * reply.length ≤ n) : s.txd n = true := by
  have past : (reply.flatMap charBits)[n]? = none :=
    List.getElem?_eq_none ((flatMap_charBits_length reply).trans_le hn)
  simp only [State.txd, State.txdBits, h, past, Option.getD_none]

/-- TXD rests high while the transmitter is IDLE. -/
theorem txd_idle {s : State} (h : s.li.transmitter = .idle) (n : Nat) : s.txd n = true := by
  simp [State.txd, State.txdBits, h]

/-- Data bit `i` of a character, after its start bit. -/
theorem charBits_data (b : Byte) {i : Nat} (hi : i < 8) : (charBits b)[1 + i]? = some (b.getLsbD i) := by
  rw [charBits, Nat.add_comm, List.cons_append, List.getElem?_cons_succ, List.getElem?_append_left (by simpa using hi)]
  simp [hi]

/-- Settles O14: the receiver by its states, the transmitter by the places of the bits. -/
theorem lineEventsFollowTheReceiver : Obligations.LineEventsFollowTheReceiver := by
  refine ⟨fun s b => ⟨fun h sync => ?_, fun h other => ?_, fun h gap => ?_, fun h gap empty bad => ?_,
    fun h gap empty lo hi => ?_, fun len rest h gap buffer lo hi => ⟨fun more => ?_, fun last => ?_⟩⟩, fun s =>
    ⟨fun h => ?_, fun h => ?_, fun h gap => ?_, fun idle => ?_, rfl⟩, fun s => ⟨txd_idle, fun reply h =>
    ⟨fun k c hc => ⟨?_, fun i hi => ?_, ?_⟩, fun n => txd_after h⟩⟩⟩
  · rw [exec_character, characterArrives_hunting b h, huntSync, if_pos (show b = syncByte from sync)]
    rfl
  · rw [exec_character, characterArrives_hunting b h, huntSync, if_neg (show b ≠ syncByte from other)]
  · rw [exec_character, exec_character, characterArrives_late b h gap, characterArrives_hunting (s := s.hunting) b rfl]
  · rw [exec_character, characterArrives_intime b h gap, assemble_badLength b empty bad]
  · have hc : s.li.buffer ++ [b] = b :: [] := by rw [empty]; rfl
    rw [exec_character, characterArrives_intime b h gap, assemble_inside b hc lo hi, if_neg (by simp)]
  · have hc : s.li.buffer ++ [b] = len :: (rest ++ [b]) := by rw [buffer]; rfl
    rw [exec_character, characterArrives_intime b h gap, assemble_inside b hc lo hi, if_neg (by simp; omega)]
    rfl
  · have hc : s.li.buffer ++ [b] = len :: (rest ++ [b]) := by rw [buffer]; rfl
    have shape : frameShape (len :: (rest ++ [b])) = true := by simp [frameShape, lo, hi, last]
    rw [exec_character, characterArrives_intime b h gap, assemble_inside b hc lo hi, if_pos (by simpa using last)]
    exact (nextIf_pos shape _ _).symm
  · exact nextIf_pos (decide_eq_true h) _ _
  · exact nextIf_neg (by simp [h]) _ _
  · exact nextIf_pos (by simp [h, gap]) _ _
  · exact nextIf_neg (by rcases idle with h | h <;> simp [h]) _ _
  · exact txd_character h hc (j := 0) (by omega)
  · rw [Nat.add_assoc, txd_character h hc (by omega), charBits_data c hi]
    rfl
  · rw [txd_character h hc (by omega)]
    rfl

end Sys2Proof.Machine
end

section
/-! PROOFS. The resets: every block at its chapter's values (R14, R25, R45, R71, R92, R112, R125, R146, R164, R179), and the
soundness of that state. -/

namespace Sys2Proof.Machine

set_option Elab.async false

/-! ## The blocks after a reset -/

theorem link_atReset (rate : LineRate) : ({ Link.reset with lineRate := rate } : Link).atReset :=
  ⟨rfl, rfl, rfl, rfl, rfl, rfl, rfl⟩

theorem controller_atReset (ignRaw : Bool) : ({ Controller.reset with ignRaw } : Controller).atReset :=
  ⟨rfl, rfl, rfl, rfl, rfl, rfl, rfl, rfl, rfl, rfl, rfl⟩

theorem convUnit_atReset (loopOhms : Vector Nat 24) : ({ ConvUnit.reset with loopOhms } : ConvUnit).atReset := by
  simp [ConvUnit.atReset, ConvUnit.reset]

theorem interp_atReset : Interp.reset.atReset := by
  simp [Interp.atReset, Interp.reset, Wired.fresh, WiredCfg.cleared, Net.fresh, NetCfg.cleared]

theorem gauge_atReset : (Gauge.fresh none []).atReset := by simp [Gauge.atReset, Gauge.fresh]

theorem warnMgr_atReset : WarnMgr.reset.atReset := by simp [WarnMgr.atReset, WarnMgr.reset, WarnInst.rest]

theorem alert_atReset : Alert.reset.atReset := by simp [Alert.atReset, Alert.reset]

theorem doorMon_atReset : DoorMon.reset.atReset := by
  simp [DoorMon.atReset, DoorMon.reset, Leaf.fresh, DoorStats.zero]

theorem faultMem_atReset : FaultMem.reset.atReset := by simp [FaultMem.atReset, FaultMem.reset, Tracker.rest]

/-- A reset takes every block to its values, where the journal it leaves is empty of work. -/
theorem resetPart_atReset (lrateHigh : Bool) {j : Journal} (s : State) (hq : j.queue = []) (hf : j.inFlight = none)
    (hr : j.reclaim = .idle) : (resetPart lrateHigh j s).atReset :=
  ⟨link_atReset _, controller_atReset _, convUnit_atReset _, interp_atReset,
    fun g => by simpa [resetPart, State.reset] using gauge_atReset, warnMgr_atReset, alert_atReset, doorMon_atReset,
    faultMem_atReset, hq, hf, hr⟩

/-- After a reset ATTN, the lamps and CHIME are off and TXD rests high. -/
theorem outputs_atReset {t : State} (h : t.atReset) :
    t.attn = false ∧ (∀ n, t.txd n = true) ∧ (∀ l : Fin 24, t.lampLit l = false) ∧ t.chimeTone = none := by
  obtain ⟨⟨-, -, idle, empty, -, -, -⟩, ⟨starting, -⟩, -, -, -, -, ⟨lamps, -, -, -, source, -⟩, -⟩ := h
  refine ⟨?_, txd_idle idle, fun l => ?_, ?_⟩
  · rw [← Bool.not_eq_true, attn_iff, empty, starting]
    simp
  · obtain ⟨-, dark, -⟩ := lamps l
    simp only [State.lampLit, dark]
  · simp only [State.chimeTone, State.sourcePattern, source]

/-! ## What the journal keeps (R178, R179) -/

/-- The identity row without a VID record on its way keeps its state. -/
theorem afterQueueLost_eq {r : IdRow} (h : r ≠ .programming) : r.afterQueueLost = r := by
  cases r with
  | programming => exact absurd rfl h
  | blank | written | spoiled => rfl

/-- What a hard reset cuts off leaves the factory row. -/
theorem cutOff_factory (j : Journal) (op : Option ArrayOp) : (j.cutOff op).factory = j.factory := by
  rcases op with _ | ⟨_ | _ | _ | _ | _⟩ <;> rfl

/-- What a hard reset cuts off leaves the identity row, where its own program is not what is cut off. -/
theorem cutOff_row (j : Journal) {op : Option ArrayOp} (h : ∀ n chars, op ≠ some (.row n chars)) :
    (j.cutOff op).row = j.row := by
  rcases op with _ | ⟨r | r | x | ⟨n, chars⟩ | _⟩
  case some.row => exact absurd rfl (h n chars)
  all_goals rfl

theorem hardReset_row {j : Journal} (inRebuild : Bool) (h : j.row ≠ .programming)
    (ops : ∀ n chars, j.inFlight ≠ some (.row n chars) ∧ j.finishing ≠ some (.row n chars)) :
    (j.hardReset inRebuild).row = j.row := by
  unfold Journal.hardReset
  dsimp only
  rw [cutOff_row, afterQueueLost_eq h]
  intro n chars
  obtain ⟨flight, finish⟩ := ops n chars
  split
  · simp
  · split
    · exact finish
    · exact flight

theorem softRestart_row {j : Journal} (h : j.row ≠ .programming) : j.softRestart.row = j.row := by
  unfold Journal.softRestart
  dsimp only
  split
  · rfl
  · exact afterQueueLost_eq h

/-! ## The commands -/

theorem exec_hardReset (lrateHigh : Bool) (s : State) : exec (.hardReset lrateHigh) s =
    .next (resetPart lrateHigh (s.jc.hardReset (decide (s.sc.opState = .starting))) s) := rfl

theorem exec_softRestart {s : State} (lrateHigh : Bool) (pending : s.li.restartPending = true)
    (idle : s.li.transmitter = .idle) :
    exec (.softRestart lrateHigh) s = .next (resetPart lrateHigh s.jc.softRestart s) :=
  nextIf_pos (by simp [State.restartDue, pending, idle]) _ _

theorem hardReset_atReset (lrateHigh inRebuild : Bool) (s : State) :
    (resetPart lrateHigh (s.jc.hardReset inRebuild) s).atReset := resetPart_atReset lrateHigh s rfl rfl rfl

theorem softRestart_atReset (lrateHigh : Bool) (s : State) : (resetPart lrateHigh s.jc.softRestart s).atReset :=
  resetPart_atReset lrateHigh s rfl rfl rfl

/-- Settles O39: both resets are `resetPart`, whose blocks stand at their values; RESTART runs its owner. -/
theorem resetsTakeEveryBlockToItsValues : Obligations.ResetsTakeEveryBlockToItsValues := by
  refine ⟨⟨resetPart_atReset (j := .reset) false .reset rfl rfl rfl, rfl⟩, fun s t c reset stepped programmed ops => ?_,
    fun s lrateHigh => ?_, ⟨fun s lrateHigh pending idle => ?_, fun s lrateHigh notDue => ?_⟩, fun s tag taken ready => ?_⟩
  · obtain ⟨lrateHigh, rfl | ⟨rfl, pending, idle⟩⟩ := reset
    · rw [exec_hardReset] at stepped
      cases stepped
      exact hardReset_row _ programmed ops
    · rw [exec_softRestart lrateHigh pending idle] at stepped
      cases stepped
      exact softRestart_row programmed
  · have values := hardReset_atReset lrateHigh (decide (s.sc.opState = .starting)) s
    exact ⟨_, exec_hardReset lrateHigh s, values, rfl, rfl, rfl, rfl, rfl, cutOff_factory _ _, outputs_atReset values⟩
  · have values := softRestart_atReset lrateHigh s
    exact ⟨_, exec_softRestart lrateHigh pending idle, values, rfl, rfl, rfl, rfl, rfl, rfl, rfl, outputs_atReset values⟩
  · exact nextIf_neg (by rcases notDue with h | h <;> simp [State.restartDue, h]) _ _
  · exact congrArg _ (reqRestart.serve_accepted tag taken rfl (decide_eq_true ready) nofun)

/-! ## The reset state is sound -/

theorem reset_gaugesSound : State.reset.gaugesSound := by
  simp [State.gaugesSound, State.reset, Gauge.sound, Gauge.fresh]

theorem reset_convSound : ConvUnit.reset.sound := by simp [ConvUnit.sound, ConvUnit.reset]

theorem reset_interpSound : Interp.reset.sound := by
  simp [Interp.sound, Interp.reset, Wired.sound, Wired.fresh, WiredCfg.cleared, Net.sound, Net.fresh, NetCfg.cleared]

theorem reset_warnSound : State.reset.warnSound := by
  simp [State.warnSound, State.reset, WarnMgr.reset, WarnInst.rest, WarnState.standing]

theorem reset_outputsSound : State.reset.outputsSound := by
  simp [State.outputsSound, State.reset, Alert.reset, WarnMgr.reset, Controller.reset, State.lampDrive, State.lampClaim,
    State.claimantNow, State.listEntries, State.testsInForce, Gauge.testing, Gauge.fresh]

theorem reset_faultsSound : FaultMem.reset.sound := by simp [FaultMem.sound, FaultMem.reset, Tracker.rest]

theorem reset_journalSound : Journal.reset.sound := by simp [Journal.sound, Journal.reset, Sector.erased]

/-- Settles O3: block by block. -/
theorem resetStateIsSound : Obligations.ResetStateIsSound where
  link := resetPart_queue_sound .reset false .reset
  doors := rfl
  gauges := reset_gaugesSound
  conv := reset_convSound
  channels := reset_interpSound
  warnings := reset_warnSound
  outputs := reset_outputsSound
  faults := reset_faultsSound
  young := nofun
  journal := reset_journalSound
  clear := ⟨rfl, nofun, fun _ => rfl⟩

end Sys2Proof.Machine
end

section
/-! PROOFS. One millisecond (R8; log 7): what the tick does to each block. -/

namespace Sys2Proof.Machine

set_option Elab.async false

/-- A tick, block by block: the CI and the WM tick in RUN, the DM and the FM in RUN and SHUTDOWN, the others always. -/
theorem tickAll_eq (s : State) : tickAll s =
    { s with
      li := s.li.tick
      sc := s.sc.tick
      cu := s.cu.tick
      ci := if s.inRun then s.ci.tick else s.ci
      ge := vmap Gauge.tick s.ge
      wm := if s.inRun then { s.wm with inst := vmap WarnInst.tick s.wm.inst } else s.wm
      ao := s.ao.tick
      dm := if s.live then { s.dm with leaves := vmap Leaf.tick s.dm.leaves } else s.dm
      fm := if s.live then { s.fm with trackers := vmap Tracker.tick s.fm.trackers } else s.fm
      jc := s.jc.tick (decide (s.sc.opState = .starting)) } := by
  unfold tickAll
  simp only [decide_eq_true_eq]
  split <;> split <;> rfl

/-! ## The blocks -/

/-- An update timer runs while its gauge is driven. -/
theorem gaugeTick_eq (x : Gauge) :
    x.tick = if x.pointer = .unpowered ∨ x.pointer = .hold then x else { x with updateMs := x.updateMs + 1 } := by
  unfold Gauge.tick
  cases x.pointer <;> simp [PointerState.driven]

/-- The conversion in flight and the settling path take their time. -/
theorem convTick_eq (u : ConvUnit) :
    u.tick = { u with elapsedQ := if u.inFlight = none then u.elapsedQ else u.elapsedQ + 4
                      settleMs := if u.path = .settling then u.settleMs + 1 else u.settleMs } := by
  cases h : u.inFlight <;> simp [ConvUnit.tick, h]

/-- A program is in flight exactly where the operation in flight is no erase. -/
theorem programming_iff (j : Journal) : j.programming = true ↔ j.inFlight ≠ none ∧ j.inFlight ≠ some .erase := by
  unfold Journal.programming
  rcases j.inFlight with _ | ⟨_ | _ | _ | _ | _⟩ <;> simp

/-- The times of the array: a program, the running erase, and in STARTING the rebuild. -/
theorem journalTick_eq (j : Journal) (starting : Prop) [Decidable starting] :
    j.tick (decide starting) =
      { j with opMs := if j.finishing ≠ none ∨ (j.inFlight ≠ none ∧ j.inFlight ≠ some .erase) then j.opMs + 1 else j.opMs
               reclaim := match j.reclaim with
                 | .erasing tail ms => .erasing tail (if j.inFlight = some .erase then min 120 (ms + 1) else ms)
                 | .copying tail slot => .copying tail slot
                 | .idle => .idle
               rebuildMs := if starting ∧ j.finishing = none then j.rebuildMs - 1 else j.rebuildMs } := by
  have busy : (j.programming || j.finishing.isSome) = true ↔
      j.finishing ≠ none ∨ (j.inFlight ≠ none ∧ j.inFlight ≠ some .erase) := by
    rw [Bool.or_eq_true, programming_iff, Option.isSome_iff_ne_none, or_comm]
  have rebuilding : (decide starting && j.finishing.isNone) = true ↔ starting ∧ j.finishing = none := by simp
  have reclaim : (match j.reclaim, j.inFlight with
      | .erasing t ms, some .erase => Reclaim.erasing t (min 120 (ms + 1))
      | r, _ => r) = match j.reclaim with
        | .erasing tail ms => .erasing tail (if j.inFlight = some .erase then min 120 (ms + 1) else ms)
        | .copying tail slot => .copying tail slot
        | .idle => .idle := by
    cases j.reclaim with
    | idle | copying => rfl
    | erasing tail ms => rcases j.inFlight with _ | ⟨_ | _ | _ | _ | _⟩ <;> rfl
  have ticked : j.tick (decide starting) =
      { j with opMs := if (j.programming || j.finishing.isSome) = true then j.opMs + 1 else j.opMs
               reclaim := match j.reclaim, j.inFlight with
                 | .erasing t ms, some .erase => .erasing t (min 120 (ms + 1))
                 | r, _ => r
               rebuildMs := if (decide starting && j.finishing.isNone) = true then j.rebuildMs - 1 else j.rebuildMs } :=
    rfl
  rw [ticked, reclaim]
  simp only [busy, rebuilding]

/-- CHIME is read off the warning definitions, the patterns, the source and the phase. -/
theorem chimeTone_congr {s t : State} (defs : t.wm.defs = s.wm.defs) (patterns : t.ao.patterns = s.ao.patterns)
    (source : t.ao.source = s.ao.source) (phase : t.ao.phase = s.ao.phase) : t.chimeTone = s.chimeTone := by
  simp only [State.chimeTone, State.sourcePattern, defs, patterns, source, phase]

/-- Settles O60: `tickAll_eq` gives every block; a table's items tick one by one, where its block ticks. -/
theorem theTickAdvancesRunningTimers : Obligations.TheTickAdvancesRunningTimers := by
  intro s
  refine ⟨_, rfl, ?_⟩
  intro down run live
  rw [tickAll_eq]
  dsimp only
  refine ⟨rfl, rfl, convTick_eq _, ?_, ?_, ?_, fun n => ?_, fun g => ?_, fun w => ?_, ?_, rfl, fun i => ?_, ?_,
    fun src => ?_, ?_, journalTick_eq _ _, rfl, rfl, rfl, chimeTone_congr ?_ rfl rfl rfl, fun l => rfl⟩
  · split <;> rfl
  · split <;> rfl
  · split <;> rfl
  · split
    · exact vmap_get _ _ n
    · rfl
  · exact (vmap_get _ _ g).trans (gaugeTick_eq _)
  · split
    · exact vmap_get _ _ w
    · rfl
  · split <;> rfl
  · split
    · exact vmap_get _ _ i
    · rfl
  · split <;> rfl
  · split
    · exact vmap_get _ _ (sourceIndex src)
    · rfl
  · split <;> rfl
  · dsimp only; split <;> rfl

end Sys2Proof.Machine
end

section
/-! PROOFS. The ignition, the operating second and the parked watch's events (R16, R21, R28, R29, R38, R39), and what queueing a
record leaves in the journal. -/

namespace Sys2Proof.Machine

set_option Elab.async false

/-! ## A queued record waits or is programmed (R167, R168) -/

/-- A record other than VID that waits in the queue is not lost by the choice of the next operation: it waits on, or its
program begins. -/
theorem serveQueue_holds {j : Journal} {c : Content} (hv : c.isVid = false) (h : c ∈ j.queue) :
    c ∈ j.serveQueue.queue ∨ ∃ n, j.serveQueue.inFlight = some (.program { seq := n, content := c }) := by
  rcases j.serveQueue_cases with ⟨chars, rest, hq, e⟩ | ⟨d, rest, hq, -, -, e⟩ | ⟨-, e⟩
  · rw [hq, List.mem_cons] at h
    rcases h with rfl | h
    · exact absurd hv (by simp [Content.isVid])
    · exact .inl (by simpa [e, Journal.begin] using h)
  · rw [hq, List.mem_cons] at h
    rcases h with rfl | h
    · exact .inr ⟨j.nextRec, by rw [e]; rfl⟩
    · exact .inl (by simpa [e, Journal.begin] using h)
  · rcases j.eraseOrFree_cases with ⟨t, ms, -, e'⟩ | ⟨-, e'⟩ <;> exact .inl (by simpa [e, e'] using h)

theorem choose_holds {j : Journal} (cycle : Nat) {c : Content} (hv : c.isVid = false)
    (h : c ∈ j.queue ∨ ∃ n, j.inFlight = some (.program { seq := n, content := c })) :
    c ∈ (j.choose cycle).queue ∨ ∃ n, (j.choose cycle).inFlight = some (.program { seq := n, content := c }) := by
  rcases j.choose_cases cycle with ⟨-, e⟩ | ⟨free, -, e⟩
  · simpa only [e] using h
  have queued : c ∈ j.queue := h.resolve_right fun ⟨n, hn⟩ => by simp [free] at hn
  rcases e with ⟨-, e⟩ | ⟨-, tail, slot, -, ⟨i, r, -, e⟩ | ⟨-, e⟩⟩ | ⟨-, -, e⟩
  · exact .inl (by simpa [e, Journal.begin] using queued)
  · refine .inl ?_
    rw [e]
    split <;> exact queued
  · rw [e]
    exact serveQueue_holds hv queued
  · rw [e]
    exact serveQueue_holds hv queued

/-- A record that is queued waits or is being programmed. -/
theorem queueRecord_holds {c : Content} (hv : c.isVid = false) (s : State) : (queueRecord c s).holdsRecord c := by
  refine choose_holds _ hv (.inl ?_)
  have queued : c ∈ enqueue s.jc.queue c := mem_enqueue.2 (.inl rfl)
  dsimp only
  split <;> exact queued

/-- A record stays, waiting or being programmed, when one of another key is queued. -/
theorem queueRecord_keeps {c d : Content} (hv : c.isVid = false) (hk : c.key ≠ d.key) {s : State} (h : s.holdsRecord c) :
    (queueRecord d s).holdsRecord c := by
  refine choose_holds _ hv ?_
  rcases h with h | ⟨n, h⟩
  · have queued : c ∈ enqueue s.jc.queue d := mem_enqueue.2 (.inr ⟨h, hk⟩)
    left
    dsimp only
    split <;> exact queued
  · right
    refine ⟨n, ?_⟩
    dsimp only
    rw [if_neg (by simp [h])]
    exact h

/-! ## Ignition and operating second (R16, R21) -/

theorem ignitionOn_stays {s : State} (h : s.sc.opState ≠ .parked ∨ s.sc.watch = .waking) : ignitionOn s =
    { s with
      li := s.li.place .ignition 0 (some 1)
      sc := { s.sc with
        ignOn := true
        ignPending := s.sc.ignPending || decide (s.sc.opState = .shutdown ∨ s.sc.opState = .parked) } } := by
  unfold ignitionOn
  cases hs : s.sc.opState <;> simp_all [report, State.modLi, State.modSc, val]

theorem ignitionOff_stays {s : State} (h : s.sc.opState ≠ .run) : ignitionOff s =
    { s with
      li := s.li.place .ignition 0 (some 0)
      sc := { s.sc with
        ignOn := false
        ignPending := s.sc.ignPending && !decide (s.sc.opState = .shutdown ∨ s.sc.opState = .parked) } } := by
  unfold ignitionOff
  cases hs : s.sc.opState <;> simp_all [report, State.modLi, State.modSc, val]

theorem exec_ignitionOn {s : State} (raw : s.sc.ignRaw = true) (off : s.sc.ignOn = false) (steady : 50 ≤ s.sc.steadyMs) :
    exec .ignitionOnConfirmed s = .next (ignitionOn s) := nextIf_pos (by simp [State.ignOnDue, raw, off, steady]) _ _

theorem exec_ignitionOff {s : State} (raw : s.sc.ignRaw = false) (on : s.sc.ignOn = true) (steady : 500 ≤ s.sc.steadyMs) :
    exec .ignitionOffConfirmed s = .next (ignitionOff s) := nextIf_pos (by simp [State.ignOffDue, raw, on, steady]) _ _

theorem ignitionOn_notDue {s : State} (h : s.sc.ignRaw = false ∨ s.sc.ignOn = true ∨ s.sc.steadyMs < 50) :
    exec .ignitionOnConfirmed s = .next s :=
  nextIf_neg (by rcases h with h | h | h <;> simp [State.ignOnDue, h]) _ _

theorem ignitionOff_notDue {s : State} (h : s.sc.ignRaw = true ∨ s.sc.ignOn = false ∨ s.sc.steadyMs < 500) :
    exec .ignitionOffConfirmed s = .next s :=
  nextIf_neg (by rcases h with h | h | h <;> simp [State.ignOffDue, h]) _ _

theorem exec_operatingSecond {s : State} (run : s.sc.opState = .run) (due : 1000 ≤ s.sc.remainderMs) :
    exec .operatingSecond s = .next (operatingSecond s) := nextIf_pos (by simp [State.inRun, run, due]) _ _

/-- A second that does not fill the interval is counted alone. -/
theorem operatingSecond_counts {s : State} (h : s.sc.cycleInterval < 3599) : operatingSecond s =
    s.modSc fun c => { c with remainderMs := c.remainderMs - 1000, opSeconds := min 4294967295 (c.opSeconds + 1),
                              cycleInterval := c.cycleInterval + 1 } :=
  if_neg (by simp only [State.modSc_sc]; omega)

/-- The second that fills the interval begins it again and queues a CYCLE record. -/
theorem operatingSecond_queues {s : State} (h : 3599 ≤ s.sc.cycleInterval) : operatingSecond s =
    queueCycle (s.modSc fun c => { c with remainderMs := c.remainderMs - 1000,
                                          opSeconds := min 4294967295 (c.opSeconds + 1), cycleInterval := 0 }) :=
  if_pos (by simp only [State.modSc_sc]; omega)

/-- Settles O37: each event by its own equation; the CYCLE record by `queueRecord_holds`. -/
theorem ignitionAndOperatingSecondsCount : Obligations.IgnitionAndOperatingSecondsCount := by
  refine ⟨fun s => ⟨fun raw off steady stays => ?_, fun raw on steady stays => ?_, ignitionOn_notDue, ignitionOff_notDue,
    fun high => ⟨fun changed => ?_, fun same => ?_⟩⟩, fun s => ⟨fun run due => ⟨fun lo => ?_, fun hi => ?_⟩, fun out => ?_⟩⟩
  · rw [exec_ignitionOn raw off steady, ignitionOn_stays stays]
  · rw [exec_ignitionOff raw on steady, ignitionOff_stays stays]
  · exact nextIf_pos (by simpa using changed) _ _
  · exact nextIf_neg (by simpa using same) _ _
  · rw [exec_operatingSecond run due, operatingSecond_counts lo]
    rfl
  · refine ⟨_, exec_operatingSecond run due, ?_⟩
    rw [operatingSecond_queues hi]
    exact ⟨rfl, queueRecord_holds rfl _, rfl⟩
  · exact nextIf_neg (by simp [out]) _ _

/-! ## Comparator events (R38, R39) -/

/-- A channel that an edge queues joins the queue without a mark, where it is not in it. -/
theorem enqueuePrio_edge (ch : Fin 24) (q : List PrioEntry) : enqueuePrio ch false q =
    if q.any (fun e => decide (e.ch = ch)) then q else q ++ [{ ch, hostMark := false }] := by
  simp [enqueuePrio]

theorem exec_comparatorEvent (ch : Fin 24) (ohms : Nat) (s : State) :
    exec (.comparatorEvent ch ohms) s = .next (loopChanges ch ohms s) := rfl

/-- The loop with its comparator moved to a level. -/
def State.comparatorMoved (s : State) (ch : Fin 24) (ohms : Nat) (new : Comparator) : State :=
  s.modCu fun u => { u with loopOhms := vset u.loopOhms ch ohms, comparator := vset u.comparator ch new }

/-- Everything a change of a loop can do (R38, R39): nothing but the loop; the comparator moves; or its ARMED latch is set with
it. -/
theorem loopChanges_cases (ch : Fin 24) (ohms : Nat) (s : State) :
    let old := s.cu.comparator[ch]
    let new := comparatorLevel ohms s.ci.wired[ch].cfg.watchThr old
    ((old = .unpowered ∨ new = old) →
      loopChanges ch ohms s = s.modCu fun u => { u with loopOhms := vset u.loopOhms ch ohms }) ∧
    (old ≠ .unpowered → new ≠ old → s.cu.latch[ch] = .set → loopChanges ch ohms s = s.comparatorMoved ch ohms new) ∧
    (old ≠ .unpowered → new ≠ old → s.cu.latch[ch] = .armed →
      loopChanges ch ohms s = latchSet ch (s.comparatorMoved ch ohms new)) := by
  intro old new
  have powered (h : old ≠ .unpowered) (hn : new ≠ old) : loopChanges ch ohms s =
      if s.cu.latch[ch] = .armed then latchSet ch (s.comparatorMoved ch ohms new) else s.comparatorMoved ch ohms new :=
    (if_neg h).trans (if_neg hn)
  refine ⟨fun h => ?_, fun h hn hl => ?_, fun h hn hl => ?_⟩
  · by_cases hu : old = .unpowered
    · exact if_pos hu
    · exact (if_neg hu).trans (if_pos (h.resolve_left hu))
  · rw [powered h hn, if_neg (by simp [hl])]
  · rw [powered h hn, if_pos hl]

/-- What an edge sets in motion, by operating and watch state (R39): the channel is queued, a wake begins, nothing more, or the
watch pass begins again. -/
theorem latchSet_cases (ch : Fin 24) (s : State) :
    let t := s.modCu fun u => { u with latch := vset u.latch ch .set }
    (s.sc.opState = .run ∨ s.sc.opState = .shutdown → latchSet ch s = queuePrio ch false t) ∧
    (s.sc.opState = .parked → s.sc.watch = .quiet → latchSet ch s = beginWake ch t) ∧
    (s.sc.opState = .parked → s.sc.watch = .settling ∨ s.sc.watch = .waking → latchSet ch s = t) ∧
    (s.sc.opState = .parked → s.sc.watch = .draining →
      latchSet ch s = beginWatchPass 0 (t.modSc fun c => { c with watch := .waking })) := by
  unfold latchSet
  refine ⟨fun h => ?_, fun h w => ?_, fun h w => ?_, fun h w => ?_⟩
  · rcases h with h | h <;> simp [h]
  · simp [h, w]
  · rcases w with w | w <;> simp [h, w]
  · simp [h, w]

/-! ## The parked watch (R28) -/

theorem drained_of {j : Journal} (queue : j.queue = []) (flight : j.inFlight = none ∨ j.inFlight = some .erase) :
    j.drained = true := by
  rcases flight with h | h <;> simp [Journal.drained, Journal.programming, queue, h]

/-- Settles O51: `loopChanges_cases`, with the effect of the latch in each operating and watch state. -/
theorem comparatorEventsQueueOrWake : Obligations.ComparatorEventsQueueOrWake := by
  intro s
  refine ⟨fun ch ohms => ?_, fun parked settling due => ?_, fun notDue => ?_, fun parked draining queue flight => ?_,
    fun notDue => ?_⟩
  · obtain ⟨stays, moves, sets⟩ := loopChanges_cases ch ohms s
    simp only [exec_comparatorEvent]
    refine ⟨fun h => congrArg _ (stays h), fun h hn hl => congrArg _ (moves h hn hl), fun h hn hl => ?_⟩
    rw [sets h hn hl]
    obtain ⟨queues, wakes, stands, again⟩ := latchSet_cases ch (s.comparatorMoved ch ohms
      (comparatorLevel ohms s.ci.wired[ch].cfg.watchThr s.cu.comparator[ch]))
    refine ⟨fun state => ?_, fun parked quiet => congrArg _ (wakes parked quiet),
      fun parked watch => congrArg _ (stands parked watch), fun parked draining => congrArg _ (again parked draining)⟩
    rw [queues state, queuePrio]
    simp only [enqueuePrio_edge]
    rfl
  · exact nextIf_pos (by simp [parked, settling, due]) _ _
  · exact nextIf_neg (by rcases notDue with h | h | h <;> simp [h]) _ _
  · exact nextIf_pos (by simp [parked, draining, drained_of queue flight]) _ _
  · exact nextIf_neg (by rcases notDue with h | h | h <;> simp [Journal.drained, h]) _ _

end Sys2Proof.Machine
end

section
/-! PROOFS. The ten checks of START (R18, R94): each answers the first item that fails it, and the judgement the first that
fails any. -/

namespace Sys2Proof.Machine

set_option Elab.async false

/-! ## Numbers of channels -/

theorem asWired_eq_some {ch : Fin 40} {w : Fin 24} : asWired ch = some w ↔ ch = wiredCh w := by
  simp only [asWired, item?, wiredCh, Fin.ext_iff]
  split
  · simp only [Option.some.injEq, Fin.ext_iff]
  · simp only [reduceCtorEq, false_iff]
    omega

theorem asNet_eq_some {ch : Fin 40} {n : Fin 16} : asNet ch = some n ↔ ch = netCh n := by
  simp only [asNet, item?, netCh, Fin.ext_iff]
  split
  · rw [dif_pos (by omega)]
    simp only [Option.some.injEq, Fin.ext_iff]
    omega
  · simp only [reduceCtorEq, false_iff]
    omega

theorem wiredCh_injective : Function.Injective wiredCh := fun a b h => Fin.ext (by simpa [wiredCh] using h)

theorem netCh_injective : Function.Injective netCh := fun a b h => Fin.ext (by simpa [netCh] using h)

/-- A channel number names a channel of kind NETWORK. -/
theorem isNetwork_iff {c : Interp} {ch : Fin 40} :
    c.isNetwork ch = true ↔ ∃ n : Fin 16, netCh n = ch ∧ c.net[n].cfg.network = true := by
  unfold Interp.isNetwork
  split
  · rename_i n h
    rw [asNet_eq_some] at h
    subst h
    refine ⟨fun on => ⟨n, rfl, on⟩, fun ⟨m, hm, on⟩ => netCh_injective hm ▸ on⟩
  · rename_i h
    simp only [Bool.false_eq_true, false_iff]
    rintro ⟨n, rfl, -⟩
    simp [asNet_eq_some.2 rfl] at h

/-! ## What a check examines -/

theorem ascends_iff (l : List Int) : ascends l = true ↔ l.Pairwise (· < ·) := by
  rw [← List.isChain_iff_pairwise]
  induction l with
  | nil => simp [ascends]
  | cons a rest ih =>
    cases rest with
    | nil => simp [ascends]
    | cons b rest => simp [ascends, ih]

theorem ascends_thresholds (l : List Nat) : ascends (l.map Int.ofNat) = true ↔ l.Pairwise (· < ·) := by
  simp [ascends_iff, List.pairwise_map]

theorem curveGood_iff (c : List CurvePoint) :
    curveGood c = true ↔ c.length ≠ 1 ∧ c.length ≤ 12 ∧ c.Pairwise fun a b => a.x < b.x := by
  simp [curveGood, ascends_iff, List.pairwise_map, and_assoc]

theorem leavesConfigured_iff {s : State} {ls : BitVec 8} :
    s.leavesConfigured ls = true ↔ ∀ l : Fin 8, ls.getLsbD l.val = true → s.dm.leaves[l].cfg.isSome := by
  simp only [State.leavesConfigured, List.all_eq_true, List.mem_finRange, true_imp_iff, Bool.or_eq_true,
    Bool.not_eq_true', inLeafSet, ← Bool.not_eq_true, ← imp_iff_not_or]

/-- A definition is usable by the model's test where R94 says so. -/
theorem warnUsable_iff {s : State} {d : WarnDef} : s.warnUsable d = true ↔ s.usable d := by
  unfold State.usable
  rw [State.warnUsable, Bool.and_eq_true, Bool.and_eq_true, and_assoc]
  refine and_congr ?_ (and_congr ?_ ?_)
  · cases d.cond with
    | channelFault ch =>
      simp only [State.condUsable]
      split
      · rename_i w h
        rw [asWired_eq_some] at h
        subst h
        exact decide_eq_true_iff.trans ⟨fun on => ⟨w, rfl, on⟩, fun ⟨m, hm, on⟩ => wiredCh_injective hm ▸ on⟩
      · rename_i h
        simp only [Bool.false_eq_true, false_iff]
        rintro ⟨w, rfl, -⟩
        simp [asWired_eq_some.2 rfl] at h
    | channelLost ch => exact isNetwork_iff
    | doorNotSecure | doorReleased | doorObstructed | doorFault => exact leavesConfigured_iff
    | switchActive | valueBelow | valueAbove => exact Iff.rfl
    | supplyLow | supplyHigh | motionUnknown => simp [State.condUsable]
  · cases d.lamp <;> simp
  · cases d.pattern <;> simp

/-! ## The first item that fails a check -/

/-- A check answers by the items it examines: none where no item fails, else the first that fails, named as R18 names it. -/
inductive State.CheckAnswers (s : State) (k : Nat) : Option (ItemClass × Nat) → Prop where
  | passes : (∀ n, ¬ s.startFails k n) → s.CheckAnswers k none
  | fails (n : Nat) (x : ItemClass × Nat) : s.startFails k n → (∀ m, s.startFails k m → n ≤ m) →
      [x.1.code, x.2] = s.startItem k n → s.CheckAnswers k (some x)

/-- A range searched in ascending number finds the first item. -/
theorem CheckAnswers.ofRange {s : State} {k n : Nat} {bad : Fin n → Bool} (name : Fin n → ItemClass × Nat)
    (means : ∀ m, s.startFails k m ↔ ∃ i : Fin n, i.val = m ∧ bad i = true)
    (named : ∀ i, bad i = true → [(name i).1.code, (name i).2] = s.startItem k i.val) :
    s.CheckAnswers k (((List.finRange n).find? bad).map name) := by
  cases h : (List.finRange n).find? bad with
  | none =>
    rw [List.find?_eq_none] at h
    refine .passes fun m hm => ?_
    obtain ⟨i, -, hi⟩ := (means m).1 hm
    exact h i (List.mem_finRange i) hi
  | some i =>
    obtain ⟨hi, before, after, e, first⟩ := List.find?_eq_some_iff_append.1 h
    refine .fails i.val _ ((means _).2 ⟨i, rfl, hi⟩) (fun m hm => ?_) (named i hi)
    obtain ⟨j, rfl, hj⟩ := (means m).1 hm
    have ordered : (before ++ i :: after).Pairwise (· < ·) := e ▸ List.pairwise_lt_finRange n
    have mem : j ∈ before ++ i :: after := e ▸ List.mem_finRange j
    rcases List.mem_append.1 mem with hb | hb
    · exact absurd hj (by simpa using first j hb)
    · rcases List.mem_cons.1 hb with rfl | hb
      · exact Nat.le_refl _
      · exact Nat.le_of_lt ((List.pairwise_cons.1 (List.pairwise_append.1 ordered).2.1).1 j hb)

/-- A list searched from its head finds the first entry. -/
theorem CheckAnswers.ofList {s : State} {k : Nat} {α : Type} {l : List α} {bad : α → Bool} (cls : ItemClass)
    (means : ∀ m, s.startFails k m ↔ ∃ x, l[m]? = some x ∧ bad x = true)
    (named : ∀ m, [cls.code, m] = s.startItem k m) :
    s.CheckAnswers k ((l.findIdx? bad).map fun i => (cls, i)) := by
  cases h : l.findIdx? bad with
  | none =>
    rw [List.findIdx?_eq_none_iff] at h
    refine .passes fun m hm => ?_
    obtain ⟨x, hx, hb⟩ := (means m).1 hm
    simp [h x (List.mem_of_getElem? hx)] at hb
  | some i =>
    obtain ⟨hi, hb, first⟩ := List.findIdx?_eq_some_iff_getElem.1 h
    refine .fails i _ ((means _).2 ⟨l[i], List.getElem?_eq_getElem hi, hb⟩) (fun m hm => ?_) (named i)
    obtain ⟨x, hx, hm⟩ := (means m).1 hm
    by_contra hlt
    obtain ⟨hml, rfl⟩ := List.getElem?_eq_some_iff.1 hx
    exact first m (by omega) hm

section
variable (s : State)

theorem startCheck1_answers : s.CheckAnswers 1 s.startCheck1 := by
  unfold State.startCheck1
  split
  · rename_i h
    exact .fails 0 _ ⟨rfl, List.isEmpty_iff.1 h⟩ (fun _ _ => Nat.zero_le _) rfl
  · rename_i h
    exact .passes fun n hn => h (List.isEmpty_iff.2 hn.2)

theorem startCheck2_answers : s.CheckAnswers 2 s.startCheck2 :=
  CheckAnswers.ofList .scan (fun m => by simp [State.startFails]) fun _ => rfl

theorem startCheck3_answers : s.CheckAnswers 3 s.startCheck3 :=
  CheckAnswers.ofRange (fun ch => (.channel, ch.val)) (fun m => by simp [State.startFails]) fun _ _ => rfl

theorem startCheck4_answers : s.CheckAnswers 4 s.startCheck4 :=
  CheckAnswers.ofRange (fun ch => (.channel, ch.val))
    (fun m => by simp only [State.startFails, Bool.and_eq_true, decide_eq_true_eq, Bool.not_eq_true', ← ascends_thresholds,
      Bool.not_eq_true]) fun _ _ => rfl

theorem pairGood_iff (ch : Fin 24) : s.pairGood ch = false ↔ ∃ p, s.ci.wired[ch].cfg.partner = some p ∧
    ¬ (s.ci.wired[p].cfg.partner = some ch ∧ s.ci.wired[p].cfg.kind = s.ci.wired[ch].cfg.kind) := by
  unfold State.pairGood
  cases s.ci.wired[ch].cfg.partner <;> simp

theorem startCheck5_answers : s.CheckAnswers 5 s.startCheck5 := by
  refine CheckAnswers.ofRange (fun ch => (.channel, min ch.val (match s.ci.wired[ch].cfg.partner with
      | some p => p.val
      | none => ch.val))) (fun m => ?_) fun ch _ => ?_
  · simp only [State.startFails, Bool.not_eq_true', pairGood_iff]
    exact exists_congr fun ch => exists_and_left
  · have item : item? 24 ch.val = some ch := dif_pos ch.isLt
    simp only [State.startItem, item]
    cases s.ci.wired[ch].cfg.partner <;> rfl

theorem startCheck6_answers : s.CheckAnswers 6 s.startCheck6 := by
  have refused (h : ¬ ∃ x : Fin 16, s.ci.motionChannel = some (netCh x) ∧ s.ci.net[x].cfg.network = true ∧
      s.ci.stopThr < s.ci.moveThr) : s.CheckAnswers 6 (some (.motion, 0)) :=
    .fails 0 _ ⟨rfl, h⟩ (fun _ _ => Nat.zero_le _) rfl
  unfold State.startCheck6
  split
  · rename_i ch h
    split
    · rename_i good
      obtain ⟨x, rfl, on⟩ := isNetwork_iff.1 good.1
      exact .passes fun n hn => hn.2 ⟨x, h, on, good.2⟩
    · rename_i bad
      refine refused fun ⟨x, hx, on, lt⟩ => bad ⟨isNetwork_iff.2 ⟨x, ?_, on⟩, lt⟩
      simpa [h] using hx.symm
  · rename_i h
    exact refused fun ⟨x, hx, _⟩ => by simp [h] at hx

theorem startCheck7_answers : s.CheckAnswers 7 s.startCheck7 := by
  refine CheckAnswers.ofRange (fun g => (.gauge, g.val)) (fun m => exists_congr fun g => ?_) fun _ _ => rfl
  cases s.ge[g].record with
  | none => simp
  | some r => simp only [Option.some.injEq, exists_and_left, exists_eq_left', Bool.not_eq_true', ← Bool.not_eq_true,
      Bool.and_eq_true, decide_eq_true_eq, curveGood_iff, and_assoc]

theorem startCheck8_answers : s.CheckAnswers 8 s.startCheck8 := by
  refine CheckAnswers.ofRange (fun w => (.warning, w.val)) (fun m => exists_congr fun w => ?_) fun _ _ => rfl
  cases s.wm.defs[w] with
  | none => simp
  | some d => simp only [Option.some.injEq, exists_and_left, exists_eq_left', Bool.not_eq_true', ← Bool.not_eq_true,
      warnUsable_iff]

theorem startCheck9_answers : s.CheckAnswers 9 s.startCheck9 := by
  refine CheckAnswers.ofRange (fun l => (.leaf, l.val)) (fun m => exists_congr fun l => ?_) fun _ _ => rfl
  cases s.dm.leaves[l].cfg with
  | none => simp
  | some c =>
    simp only [Option.some.injEq, exists_and_left, exists_eq_left']
    cases c.inputs[slotClosed] <;> simp

theorem startCheck10_answers : s.CheckAnswers 10 s.startCheck10 :=
  CheckAnswers.ofList .freeze (fun m => exists_congr fun x => and_congr_right fun _ => by
    cases x <;> simp [State.selectorGood]) fun _ => rfl

end

/-! ## The judgement -/

/-- The ten checks in their order, each with its number. -/
theorem judgement_answers (s : State) : ∀ i (h : i < 10), s.CheckAnswers (1 + i) ([s.startCheck1, s.startCheck2, s.startCheck3,
    s.startCheck4, s.startCheck5, s.startCheck6, s.startCheck7, s.startCheck8, s.startCheck9, s.startCheck10][i]'h)
  | 0, _ => startCheck1_answers s
  | 1, _ => startCheck2_answers s
  | 2, _ => startCheck3_answers s
  | 3, _ => startCheck4_answers s
  | 4, _ => startCheck5_answers s
  | 5, _ => startCheck6_answers s
  | 6, _ => startCheck7_answers s
  | 7, _ => startCheck8_answers s
  | 8, _ => startCheck9_answers s
  | 9, _ => startCheck10_answers s

/-- Of checks in a row, numbered from `start`, the first answer is that of the first check with a failing item. -/
theorem findSome_answers {s : State} {k n : Nat} (fails : s.startFails k n)
    (first : ∀ k' n', s.startFails k' n' → k < k' ∨ (k = k' ∧ n ≤ n')) (cs : List (Option (ItemClass × Nat))) (start : Nat)
    (answers : ∀ i (h : i < cs.length), s.CheckAnswers (start + i) cs[i]) (lo : start ≤ k) (hi : k < start + cs.length) :
    ∃ x, cs.findSome? id = some x ∧ [x.1.code, x.2] = s.startItem k n := by
  induction cs generalizing start with
  | nil => simp only [List.length_nil] at hi; omega
  | cons c cs ih =>
    have head : s.CheckAnswers start c := answers 0 (by simp)
    cases head with
    | passes none =>
      have later : start ≠ k := by rintro rfl; exact none n fails
      simp only [List.length_cons] at hi
      refine ih (start + 1) (fun i h => ?_) (by omega) (by omega)
      have next := answers (i + 1) (by simpa using h)
      rwa [show start + (i + 1) = start + 1 + i by omega] at next
    | fails m x failsHere firstHere named =>
      obtain rfl : k = start := by have := first start m failsHere; omega
      have : m = n := Nat.le_antisymm (firstHere n fails) (by have := first k m failsHere; omega)
      exact ⟨x, rfl, this ▸ named⟩

/-- The checks are numbered 1 to 10. -/
theorem startFails_range {s : State} {k n : Nat} (h : s.startFails k n) : 1 ≤ k ∧ k < 11 := by
  unfold State.startFails at h
  split at h
  case h_11 => exact h.elim
  all_goals omega

theorem judgement_fails {s : State} {k n : Nat} (fails : s.startFails k n)
    (first : ∀ k' n', s.startFails k' n' → k < k' ∨ (k = k' ∧ n ≤ n')) :
    ∃ x, s.judgement = some x ∧ [x.1.code, x.2] = s.startItem k n := by
  obtain ⟨lo, hi⟩ := startFails_range fails
  exact findSome_answers fails first _ 1 (judgement_answers s) lo hi

/-- A configuration in which no item fails is judged good. -/
theorem judgement_passes {s : State} (h : s.startable) : s.judgement = none := by
  have passes {k : Nat} {c : Option (ItemClass × Nat)} (a : s.CheckAnswers k c) : c = none := by
    cases a with
    | passes => rfl
    | fails n x bad => exact absurd bad (h k n)
  simp only [State.judgement, passes (startCheck1_answers s), passes (startCheck2_answers s),
    passes (startCheck3_answers s), passes (startCheck4_answers s), passes (startCheck5_answers s),
    passes (startCheck6_answers s), passes (startCheck7_answers s), passes (startCheck8_answers s),
    passes (startCheck9_answers s), passes (startCheck10_answers s), List.findSome?, id]

/-! ## START -/

theorem exec_start {s : State} (tag : Byte) (taken : s.taking) (config : s.sc.opState = .config) :
    exec (.start tag []) s = .next (sendReply 0x08 tag (start s).2 (start s).1) :=
  congrArg _ (reqStart.serve_accepted tag taken rfl (decide_eq_true config) nofun)

/-- START of a good configuration fixes it and enters RUN or PARKED, by the ignition (R18, R19). -/
theorem exec_start_startable {s : State} (tag : Byte) (taken : s.taking) (config : s.sc.opState = .config)
    (good : s.startable) : exec (.start tag []) s = .next (sendReply 0x08 tag (.positive [])
      (if s.sc.ignOn then enterRun (fixConfiguration s) else enterParked (fixConfiguration s))) := by
  rw [exec_start tag taken config]
  simp only [start, judgement_passes good]
  rfl

/-- Settles O33: the judgement names the first failing item by `judgement_fails`, and a refusal changes the reply alone. -/
theorem startNamesTheFirstFailingItem : Obligations.StartNamesTheFirstFailingItem := by
  intro s tag k n taken config fails first
  obtain ⟨⟨item, number⟩, judged, named⟩ := judgement_fails fails first
  have answer : start s = (s, .badConfig item number) := by simp only [start, judged]
  rw [exec_start tag taken config, answer, sendReply_badConfig, ← named]
  rfl

end Sys2Proof.Machine
end

section
/-! PROOFS. Rules for the ways out of RUN: units of a free order that do not see each other, absences at the FM, the chime without
a claimant, and the gauges' responses (R22 to R24, R86, R87, R109, R111, R117, R124). -/

namespace Sys2Proof.Machine

set_option Elab.async false

/-! ## Free orders -/

/-- What the active units keep until one of them runs, and what holds after that one from then on: a free order ends with the
second, and so it does where that unit has nothing to do and the first gives the second. -/
theorem inFreeOrder_at (P Q : State → Prop) {b : Bool} {u : State → State} (pre post : List (Bool × (State → State)))
    {s : State} (start : P { s with freeCount := s.freeCount + 1 })
    (others : ∀ v, (true, v) ∈ pre ++ post → ∀ t, (P t → P (v t)) ∧ (Q t → Q (v t)))
    (here : b = true → ∀ t, P t → Q (u t)) (idle : b = false → ∀ t, P t → Q t) :
    Q (inFreeOrder (pre ++ (b, u) :: post) s) := by
  cases b with
  | false =>
    refine idle rfl _ (inFreeOrder_induct P start fun v hv t => (others v ?_ t).1)
    simpa using hv
  | true =>
    obtain ⟨order, perm, e⟩ := inFreeOrder_eq (pre ++ (true, u) :: post) s
    have active : activeUnits (pre ++ (true, u) :: post) = activeUnits pre ++ u :: activeUnits post := by
      simp [activeUnits]
    rw [active] at perm
    obtain ⟨xs, ys, rfl⟩ := List.append_of_mem (perm.mem_iff.2 (by simp : u ∈ activeUnits pre ++ u :: activeUnits post))
    have rest : (xs ++ ys).Perm (activeUnits pre ++ activeUnits post) :=
      ((List.perm_middle.symm.trans perm).trans List.perm_middle).cons_inv
    have keeps (v : State → State) (hv : v ∈ xs ++ ys) : ∀ t, (P t → P (v t)) ∧ (Q t → Q (v t)) := by
      refine others v ?_
      have mem := rest.mem_iff.1 hv
      simpa [activeUnits] using mem
    rw [e, List.foldl_append, List.foldl_cons]
    exact foldl_induct Q _ ys _
      (here rfl _ (foldl_induct P _ xs _ start fun v hv t => (keeps v (List.mem_append_left _ hv) t).1))
      fun v hv t => (keeps v (List.mem_append_right _ hv) t).2

/-- Where placing reports is all that changed, the other parts stand. -/
theorem Only.eq_link {s t : State} (h : Only [.reports, .free] s t) :
    t = { s with li := t.li, freeCount := t.freeCount } := by
  have pending := h.pending
  have sc := h.sc
  have cu := h.cu
  have ci := h.ci
  have ge := h.ge
  have wm := h.wm
  have ao := h.ao
  have dm := h.dm
  have fm := h.fm
  have jc := h.jc
  cases t
  simp_all

/-- Gauges changed one by one, each by its own step alone (log 11): every gauge is changed. -/
theorem forEach_gauges {f : Fin 8 → State → State} (s : State) (h : Gauge → Gauge)
    (step : ∀ g t, t.ci = s.ci → (f g t).ge = vmod t.ge g h ∧ (f g t).ci = t.ci) : (forEach f s).ge = vmap h s.ge := by
  have fold : ∀ (gs : List (Fin 8)) (t : State), t.ci = s.ci → gs.Nodup → ∀ g : Fin 8,
      (gs.foldl (fun t g => f g t) t).ge[g] = if g ∈ gs then h t.ge[g] else t.ge[g] := by
    intro gs
    induction gs with
    | nil => intro t _ _ g; simp
    | cons x xs ih =>
      intro t ht nodup g
      obtain ⟨stepped, kept⟩ := step x t ht
      obtain ⟨notIn, nodup⟩ := List.nodup_cons.1 nodup
      rw [List.foldl_cons, ih _ (kept.trans ht) nodup g, stepped, vmod_get]
      by_cases hg : x = g
      · subst hg
        simp [notIn]
      · simp [hg, Ne.symm hg]
  refine table_ext fun g => ?_
  rw [vmap_get, forEach, fold _ s rfl (List.nodup_finRange 8) g, if_pos (List.mem_finRange g)]

/-! ## Sources (R147 to R149) -/

/-- The list of the sources has each at its index. -/
theorem allSources_sourceIndex (src : FaultSource) : allSources[(sourceIndex src).val]? = some src := by
  cases src with
  | wiring ch => revert ch; decide
  | netlost n => revert n; decide
  | gauge g => revert g; decide
  | warning w => revert w; decide
  | doorLock l | doorSlow l | doorInput l | doorParked l => revert l; decide
  | system n => revert n; decide

theorem sourceIndex_injective : Function.Injective sourceIndex := by
  intro a b h
  have same : some a = some b := by rw [← allSources_sourceIndex a, ← allSources_sourceIndex b, h]
  exact Option.some.inj same

@[simp] theorem setTracker_present (src x : FaultSource) (k : Tracker) (s : State) :
    (setTracker src k s).fm.present x = s.fm.present x := rfl

theorem setTracker_tracker (src x : FaultSource) (k : Tracker) (s : State) :
    (setTracker src k s).fm.tracker x = if src = x then k else s.fm.tracker x := by
  have same : sourceIndex src = sourceIndex x ↔ src = x := sourceIndex_injective.eq_iff
  simp only [FaultMem.tracker, setTracker, State.modFm_fm, vset_get, same]

/-- The presence of one source set. -/
def FaultMem.withPresence (f : FaultMem) (src : FaultSource) (p : Bool) : FaultMem :=
  { f with presence := vset f.presence (sourceIndex src) p }

theorem withPresence_present (f : FaultMem) (src x : FaultSource) (p : Bool) :
    (f.withPresence src p).present x = if src = x then p else f.present x := by
  have same : sourceIndex src = sourceIndex x ↔ src = x := sourceIndex_injective.eq_iff
  simp only [FaultMem.present, FaultMem.withPresence, vset_get, same]

@[simp] theorem withPresence_tracker (f : FaultMem) (src x : FaultSource) (p : Bool) :
    (f.withPresence src p).tracker x = f.tracker x := rfl

/-- A handed absence (R149): nothing, or the source is absent with its tracker ABSENT. -/
theorem setPresence_false (src : FaultSource) (s : State) :
    (s.fm.present src = false ∧ setPresence src false s = s) ∨
    (s.fm.present src = true ∧
      setPresence src false s = setTracker src .rest (s.modFm fun f => f.withPresence src false)) := by
  rcases setPresence_cases src false s with ⟨h, e⟩ | ⟨-, h, -⟩ | ⟨-, h, -⟩ | ⟨h, -, e⟩
  · exact .inl ⟨h, e⟩
  · exact absurd h (by decide)
  · exact absurd h (by decide)
  · exact .inr ⟨h, e⟩

theorem setPresence_false_only (src : FaultSource) (s : State) : Only [.fm] s (setPresence src false s) := by
  rcases setPresence_false src s with ⟨-, e⟩ | ⟨-, e⟩ <;> rw [e]
  · exact .refl _ _
  · exact (modFm_only s _).trans (setTracker_only _ _ _)

/-- Some sources become absent and nothing else of the FM changes (R109, R149). -/
structure HandsAbsences (gone : FaultSource → Prop) (s t : State) : Prop where
  frame   : t.fm = { s.fm with presence := t.fm.presence, trackers := t.fm.trackers }
  absent  : ∀ src, gone src → t.fm.present src = false
  rests   : ∀ src, gone src → s.fm.present src = true → t.fm.tracker src = .rest
  stays   : ∀ src, ¬ gone src → t.fm.present src = s.fm.present src
  tracked : ∀ src, ¬ gone src ∨ s.fm.present src = false → t.fm.tracker src = s.fm.tracker src

theorem HandsAbsences.refl (s : State) : HandsAbsences (fun _ => False) s s where
  frame := rfl
  absent := nofun
  rests := nofun
  stays _ _ := rfl
  tracked _ _ := rfl

theorem HandsAbsences.trans {g h : FaultSource → Prop} {s t u : State} (a : HandsAbsences g s t)
    (b : HandsAbsences h t u) : HandsAbsences (fun src => g src ∨ h src) s u where
  frame := by
    rw [b.frame, a.frame]
  absent src hsrc := by
    by_cases hb : h src
    · exact b.absent src hb
    · rw [b.stays src hb, a.absent src (hsrc.resolve_right hb)]
  rests src hsrc present := by
    by_cases ha : g src
    · rw [b.tracked src (.inr (a.absent src ha)), a.rests src ha present]
    · exact b.rests src (hsrc.resolve_left ha) (by rw [a.stays src ha, present])
  stays src hsrc := by
    rw [b.stays src fun hb => hsrc (.inr hb), a.stays src fun ha => hsrc (.inl ha)]
  tracked src hsrc := by
    by_cases present : s.fm.present src = false
    · have absent : t.fm.present src = false := by
        by_cases ha : g src
        · exact a.absent src ha
        · rw [a.stays src ha, present]
      rw [b.tracked src (.inr absent), a.tracked src (.inr present)]
    · have none := hsrc.resolve_right present
      rw [b.tracked src (.inl fun hb => none (.inr hb)), a.tracked src (.inl fun ha => none (.inl ha))]

theorem HandsAbsences.congr {g h : FaultSource → Prop} {s t : State} (a : HandsAbsences g s t)
    (e : ∀ src, g src ↔ h src) : HandsAbsences h s t := by
  rwa [← funext fun src => propext (e src)]

theorem HandsAbsences.ofFm {g : FaultSource → Prop} {s s' t t' : State} (a : HandsAbsences g s t) (hs : s'.fm = s.fm)
    (ht : t'.fm = t.fm) : HandsAbsences g s' t' where
  frame := by rw [hs, ht]; exact a.frame
  absent := by rw [ht]; exact a.absent
  rests := by rw [hs, ht]; exact a.rests
  stays := by rw [hs, ht]; exact a.stays
  tracked := by rw [hs, ht]; exact a.tracked

theorem setPresence_false_hands (src : FaultSource) (s : State) :
    HandsAbsences (fun x => x = src) s (setPresence src false s) := by
  rcases setPresence_false src s with ⟨absent, e⟩ | ⟨present, e⟩ <;> rw [e]
  · exact ⟨rfl, fun x h => h ▸ absent, fun x h hp => absurd hp (by simp [h, absent]), fun _ _ => rfl, fun _ _ => rfl⟩
  · refine ⟨rfl, fun x h => ?_, fun x h _ => ?_, fun x h => ?_, fun x h => ?_⟩
    · simp [h, withPresence_present]
    · simp [h, setTracker_tracker]
    · simp [withPresence_present, Ne.symm h]
    · have other : src ≠ x := by
        rintro rfl
        rcases h with h | h
        · exact h rfl
        · exact absurd h (by simp [present])
      simp [setTracker_tracker, other]

/-- The warning hands an absence at the end of RUN (R109, R111). -/
def State.endsPresence (s : State) (was : Vector WarnInst 64) (w : Fin 64) : Prop :=
  s.faultLinked w = true ∧ (was[w].state = .active ∨ was[w].state = .acked)

theorem absentWarning_only (was : Vector WarnInst 64) (w : Fin 64) (s : State) : Only [.fm] s (absentWarning was w s) := by
  unfold absentWarning
  split
  · exact setPresence_false_only _ s
  · exact .refl _ s

theorem absentWarning_hands (was : Vector WarnInst 64) (w : Fin 64) (s : State) :
    HandsAbsences (fun src => src = .warning w ∧ s.endsPresence was w) s (absentWarning was w s) := by
  have flag : (s.faultLinked w && (decide (was[w].state = .active) || decide (was[w].state = .acked))) = true ↔
      s.endsPresence was w := by simp [State.endsPresence]
  unfold absentWarning
  split
  · rename_i h
    exact (setPresence_false_hands _ s).congr fun src => (and_iff_left (flag.1 h)).symm
  · rename_i h
    exact (HandsAbsences.refl s).congr fun src => iff_of_false id fun hw => h (flag.2 hw.2)

/-- All the absences handed at the end of RUN. -/
theorem absentWarnings_hand (was : Vector WarnInst 64) (ws : List (Fin 64)) (s : State) :
    HandsAbsences (fun src => ∃ w ∈ ws, src = .warning w ∧ s.endsPresence was w) s
      (ws.foldl (fun t w => absentWarning was w t) s) := by
  induction ws generalizing s with
  | nil => exact (HandsAbsences.refl s).congr fun src => by simp
  | cons w ws ih =>
    have linked (x : Fin 64) : (absentWarning was w s).endsPresence was x ↔ s.endsPresence was x := by
      simp only [State.endsPresence, State.faultLinked, (absentWarning_only was w s).wm]
    refine ((absentWarning_hands was w s).trans (ih _)).congr fun src => ?_
    simp only [linked, List.mem_cons, exists_eq_or_imp]

/-- The absences handed are those that R109 names. -/
theorem handsWarningAbsences_of {s t : State}
    (h : HandsAbsences (fun src => ∃ w ∈ List.finRange 64, src = .warning w ∧ s.endsPresence s.wm.inst w) s t) :
    s.handsWarningAbsences t := by
  have gone (src : FaultSource) : (∃ w ∈ List.finRange 64, src = .warning w ∧ s.endsPresence s.wm.inst w) ↔
      ∃ (w : Fin 64) (d : WarnDef), src = .warning w ∧ s.wm.defs[w] = some d ∧ d.faultLink = true ∧
        (s.wm.inst[w].state = .active ∨ s.wm.inst[w].state = .acked) := by
    refine exists_congr fun w => ?_
    simp only [List.mem_finRange, true_and, State.endsPresence, State.faultLinked]
    cases s.wm.defs[w] <;> simp
  refine ⟨h.frame, fun src => ⟨fun g => ⟨h.absent src ((gone src).2 g), h.rests src ((gone src).2 g)⟩, fun g =>
    h.stays src fun x => g ((gone src).1 x), fun g => h.tracked src (g.imp_left fun n x => n ((gone src).1 x))⟩⟩

/-! ## The chime outside RUN (R117, R118, R124) -/

@[simp] theorem refreshLamps_ao (s : State) : (refreshLamps s).ao = { s.ao with drive := tab s.lampDrive } := rfl

/-- A lamp without override stands at its claim, or lit while the bulb check runs (R121). -/
theorem lampDrive_free {s : State} {l : Fin 24} (h : s.ao.overrides[l] = none) :
    s.lampDrive l = if s.ao.bulb.isSome then .lit else s.lampClaim l := by
  simp only [State.lampDrive, h]

/-- An empty list claims no lamp (R120). -/
theorem lampClaim_empty {s : State} (h : s.ao.listCopy = []) (l : Fin 24) : s.lampClaim l = .dark := by
  simp [State.lampClaim, h, strongest]

/-- A stop of the generator changes the generator alone. -/
theorem stopGenerator_ao (s : State) : (stopGenerator s).ao =
    { s.ao with genRunning := (stopGenerator s).ao.genRunning, phase := (stopGenerator s).ao.phase
                genQ := (stopGenerator s).ao.genQ } := by
  unfold stopGenerator
  split <;> rfl

/-- A derivation of the claimant changes claimant, source and generator alone. -/
theorem deriveChime_ao (s : State) : (deriveChime s).ao =
    { s.ao with claimant := s.claimantNow, source := (deriveChime s).ao.source, burst := (deriveChime s).ao.burst
                phase := (deriveChime s).ao.phase, genQ := (deriveChime s).ao.genQ
                genRunning := (deriveChime s).ao.genRunning } := by
  rcases deriveChime_cases s with ⟨-, -, e⟩ | ⟨-, e⟩
  · rw [e, chimeSwitch, stopGenerator_ao]
    rfl
  · rw [e]
    rfl

/-- With source NONE no tone sounds. -/
theorem chimeTone_none {s : State} (h : s.ao.source = .none) : s.chimeTone = none := by
  simp [State.chimeTone, State.sourcePattern, h]

/-- A derivation leaves no tone sounding that is not the claimant's, but one that ends at its own on-period. -/
theorem deriveChime_source (s : State) :
    (deriveChime s).ao.source = s.claimantNow ∨ (deriveChime s).chimeTone ≠ none := by
  rcases deriveChime_cases s with ⟨-, -, e⟩ | ⟨h, e⟩
  · refine .inl ?_
    rw [e, chimeSwitch, stopGenerator_ao]
    rfl
  · rw [e]
    exact h.imp_left Eq.symm

/-- What the WM and the AO hold once RUN has been left (R111, R121, R124). -/
def State.silenced (t : State) : Prop :=
  (∀ w : Fin 64, t.wm.inst[w].state = .inactive ∧ t.wm.inst[w].delayT = none ∧ t.wm.inst[w].alertT = none) ∧
    t.wm.list = [] ∧ t.ao.bulb = none ∧ (∀ l : Fin 24, t.ao.drive[l] = .dark) ∧ t.ao.listCopy = [] ∧
    t.ao.claimant = .none ∧
    (t.ao.source = .none → t.chimeTone = none ∧ t.ao.genRunning = false ∧ t.ao.phase = 0) ∧
    (t.ao.source ≠ .none → t.chimeTone ≠ none)

theorem silenced_congr {s t : State} (wm : t.wm = s.wm) (ao : t.ao = s.ao) (h : s.silenced) : t.silenced := by
  have tone : t.chimeTone = s.chimeTone := chimeTone_congr (by rw [wm]) (by rw [ao]) (by rw [ao]) (by rw [ao])
  simpa only [State.silenced, wm, ao, tone] using h

theorem outsideRun_of {t : State} (session : t.sc.service = false) (doors : t.dm.doorsClear = false) (h : t.silenced) :
    t.outsideRun := by
  obtain ⟨inst, list, bulb, drive, copy, claimant, silent, sounding⟩ := h
  exact ⟨session, inst, list, bulb, drive, doors, copy, claimant, silent, sounding⟩

/-- No test is in force at the AO. -/
def Alert.untested (a : Alert) : Prop := a.chimeTest = none ∧ ∀ l : Fin 24, a.overrides[l] = none

/-- The AO at the end of RUN, where no test is in force: lamps dark, no claimant, the tone falling silent. -/
theorem alertsLeaveRun_silences {s : State} (out : s.sc.opState ≠ .run) (untested : s.ao.untested)
    (inst : ∀ w : Fin 64, s.wm.inst[w].state = .inactive ∧ s.wm.inst[w].delayT = none ∧ s.wm.inst[w].alertT = none)
    (list : s.wm.list = []) : (alertsLeaveRun s).silenced := by
  obtain ⟨noTest, noOverride⟩ := untested
  set bare := s.modAo fun a => { a with bulb := none, listCopy := [] } with bare_eq
  set emptied := refreshLamps bare with emptied_eq
  have dark (l : Fin 24) : emptied.ao.drive[l] = .dark := by
    have free : bare.ao.overrides[l] = none := noOverride l
    rw [emptied_eq, refreshLamps_ao, tab_get, lampDrive_free free, lampClaim_empty rfl]
    rfl
  have none : emptied.claimantNow = .none := by simp [State.claimantNow, emptied_eq, bare_eq, noTest]
  have derived := deriveChime_ao emptied
  have wm : (alertsLeaveRun s).wm = s.wm := (alertsLeaveRun_only s).wm
  have stopped : (alertsLeaveRun s).ao =
      { (deriveChime emptied).ao with
        genRunning := (alertsLeaveRun s).ao.genRunning, phase := (alertsLeaveRun s).ao.phase
        genQ := (alertsLeaveRun s).ao.genQ } := stopGenerator_ao _
  have out' : (deriveChime emptied).sc.opState ≠ .run := by
    rw [(deriveChime_only emptied).sc]
    exact out
  have source : (alertsLeaveRun s).ao.source = (deriveChime emptied).ao.source := by rw [stopped]
  refine ⟨fun w => wm ▸ inst w, wm ▸ list, ?_, fun l => ?_, ?_, ?_, fun h => ⟨chimeTone_none h, ?_⟩, fun h => ?_⟩
  · rw [stopped, derived]
    rfl
  · rw [stopped, derived]
    exact dark l
  · rw [stopped, derived]
    rfl
  · rw [stopped, derived]
    exact none
  · have ends : alertsLeaveRun s = (deriveChime emptied).modAo fun a => { a with genRunning := false, phase := 0, genQ := 0 } :=
      if_pos ⟨out', source ▸ h⟩
    rw [ends]
    exact ⟨rfl, rfl⟩
  · have sounds : alertsLeaveRun s = deriveChime emptied := if_neg fun hs => h (source.trans hs.2)
    rw [sounds]
    exact (deriveChime_source emptied).resolve_left fun hs => h (source.trans (hs.trans none))

/-- The WM and the AO at the end of RUN (R111, R124). -/
theorem warningsLeaveRun_silences {s : State} (out : s.sc.opState ≠ .run) (untested : s.ao.untested) :
    (warningsLeaveRun s).silenced := by
  set rested := s.modWm fun m =>
    { m with inst := vmap (fun i : WarnInst => { i with state := .inactive, delayT := none, alertT := none }) m.inst,
             list := [] } with rested_eq
  have absent : Only [.fm] rested (forEach (absentWarning s.wm.inst) rested) :=
    Only.forEach fun w t => absentWarning_only _ w t
  refine alertsLeaveRun_silences ?_ ?_ (fun w => ?_) ?_
  · rw [absent.sc]
    exact out
  · rw [absent.ao]
    exact untested
  · rw [absent.wm, rested_eq, State.modWm_wm, vmap_get]
    exact ⟨rfl, rfl, rfl⟩
  · rw [absent.wm]
    rfl

/-- The end of RUN changes the WM, the AO and presences alone, and keeps definitions and floor. -/
theorem warningsLeaveRun_leaves (s : State) : Only [.wm, .ao, .fm] s (warningsLeaveRun s) ∧
    (warningsLeaveRun s).wm.defs = s.wm.defs ∧ (warningsLeaveRun s).wm.floor = s.wm.floor ∧
    s.handsWarningAbsences (warningsLeaveRun s) := by
  set rested := s.modWm fun m =>
    { m with inst := vmap (fun i : WarnInst => { i with state := .inactive, delayT := none, alertT := none }) m.inst,
             list := [] } with rested_eq
  have absent : Only [.fm] rested (forEach (absentWarning s.wm.inst) rested) :=
    Only.forEach fun w t => absentWarning_only _ w t
  have last : Only [.ao] (forEach (absentWarning s.wm.inst) rested) (warningsLeaveRun s) := alertsLeaveRun_only _
  have hands := absentWarnings_hand s.wm.inst (List.finRange 64) rested
  refine ⟨((modWm_only s _).mono.andThen absent).andThen last, by rw [last.wm, absent.wm]; rfl,
    by rw [last.wm, absent.wm]; rfl, handsWarningAbsences_of ?_⟩
  have linked (w : Fin 64) : rested.endsPresence s.wm.inst w ↔ s.endsPresence s.wm.inst w := Iff.rfl
  simp only [linked] at hands
  exact hands.ofFm rfl last.fm

/-! ## The end of the session (R182 to R184) -/

theorem alertsEndTests_untested (s : State) : (alertsEndTests s).ao.untested := by
  have derived := deriveChime_ao (refreshLamps (s.modAo fun a =>
    { a with overrides := Vector.replicate 24 none, chimeTest := none }))
  rw [← alertsEndTests] at derived
  refine ⟨by rw [derived]; rfl, fun l => ?_⟩
  have cleared : (alertsEndTests s).ao.overrides = Vector.replicate 24 none := by
    rw [derived]
    rfl
  rw [cleared]
  exact Vector.getElem_replicate l.isLt

theorem untested_of_noTests {s : State} (h : s.testsInForce = false) : s.ao.untested := by
  simpa [State.testsInForce, Alert.untested, and_comm] using (Bool.or_eq_false_iff.1 h).imp_left
    fun h => (Bool.or_eq_false_iff.1 h).2

/-- The end of the session leaves the service flag off and no test in force at the AO. -/
theorem endSession_ends {s : State} (h : s.testsInForce = true → s.sc.service = true) (c : EndCause) :
    (endSession c s).sc.service = false ∧ (endSession c s).ao.untested := by
  unfold endSession
  split
  · refine ⟨rfl, ?_⟩
    show (endTests c s).ao.untested
    unfold endTests
    split
    · exact alertsEndTests_untested _
    · rename_i none
      exact untested_of_noTests (by simpa using none)
  · rename_i off
    exact ⟨by simpa using off, untested_of_noTests (by simpa using mt h off)⟩

/-- STOP leaves the gauges to R87. -/
theorem endSession_stop_only (s : State) : Only [.reports, .ao, .service] s (endSession .stop s) := by
  have tests : Only [.reports, .ao] s (endTests .stop s) :=
    .ite ((report_only s _ _ _).mono.andThen (alertsEndTests_only _)) (.refl _ s)
  have flag : Only [.service] (endTests .stop s) ((endTests .stop s).modSc fun c => { c with service := false }) :=
    ⟨fun b hb => by cases b <;> simp_all [Part.same, Controller.bare], .refl _⟩
  exact .ite ((tests.mono.andThen flag).andThen (report_only _ _ _ _)) (.refl _ s)

end Sys2Proof.Machine
end

section
/-! PROOFS. The ways into PARKED, SHUTDOWN and CONFIG (R22 to R24, R27, R43, R44, R86, R87, R139, R140). -/

namespace Sys2Proof.Machine

set_option Elab.async false

/-! ## Gauges at the end of RUN (R86, R87, R89) -/

/-- A gauge stopped where it stands (R87). -/
def Gauge.stopped (x : Gauge) : Gauge :=
  if x.pointer = .unpowered then x
  else { x with pointer := .unpowered, resume := none, updateMs := 0, testPos := none, testDue := false }

/-- A gauge sent to parking (R86). -/
def Gauge.parks (x : Gauge) : Gauge :=
  match x.pointer with
  | .hold => { x with resume := some .parking }
  | .unpowered => x
  | _ => { x with pointer := .parking }

/-- A gauge at the end of tests (R89). -/
def Gauge.endsTest (x : Gauge) : Gauge :=
  if x.pointer = .test then { x.leaveTest with pointer := .tracking }
  else if x.testing then { x.leaveTest with resume := some .tracking }
  else x

theorem vmod_vmod {α : Type} {n : Nat} (v : Vector α n) (i : Fin n) (f g : α → α) :
    vmod (vmod v i f) i g = vmod v i fun x => g (f x) := by
  refine table_ext fun j => ?_
  rw [vmod_get, vmod_get, vmod_get, vmod_get]
  split <;> simp

theorem vmod_eq_self {α : Type} {n : Nat} {v : Vector α n} {i : Fin n} {f : α → α} (h : f v[i] = v[i]) :
    vmod v i f = v := by
  refine table_ext fun j => ?_
  rw [vmod_get]
  split
  · subst_vars
    exact h
  · rfl

theorem vmod_congr {α : Type} {n : Nat} {v : Vector α n} {i : Fin n} {f g : α → α} (h : f v[i] = g v[i]) :
    vmod v i f = vmod v i g := by
  simp only [vmod, h]

theorem stopGauge_ge (g : Fin 8) (s : State) : (stopGauge g s).ge = vmod s.ge g Gauge.stopped := by
  unfold stopGauge
  split
  · rename_i h
    exact (vmod_eq_self (f := Gauge.stopped) (if_pos h)).symm
  · rename_i h
    exact (vmod_vmod s.ge g (fun x => { x with resume := none, updateMs := 0, testPos := none, testDue := false })
      fun x => { x with pointer := .unpowered }).trans (vmod_congr (if_neg h).symm)

theorem parkGauge_ge (g : Fin 8) (s : State) : (parkGauge g s).ge = vmod s.ge g Gauge.parks := by
  unfold parkGauge
  cases h : s.ge[g].pointer with
  | unpowered => exact (vmod_eq_self (by simp only [Gauge.parks, h])).symm
  | hold =>
    show vmod s.ge g (fun x => { x with resume := some .parking }) = _
    exact vmod_congr (by simp only [Gauge.parks, h])
  | homing | sweep | tracking | test | parking =>
    show vmod s.ge g (fun x => { x with pointer := .parking }) = _
    exact vmod_congr (by simp only [Gauge.parks, h])

theorem endGaugeTest_ge (g : Fin 8) (s : State) : (endGaugeTest g s).ge = vmod s.ge g Gauge.endsTest := by
  unfold endGaugeTest
  split
  · rename_i h
    exact (vmod_vmod s.ge g Gauge.leaveTest fun x => { x with pointer := .tracking }).trans (vmod_congr (if_pos h).symm)
  · rename_i h
    split
    · rename_i testing
      show vmod s.ge g (fun x => { x.leaveTest with resume := some .tracking }) = _
      exact vmod_congr (by simp only [Gauge.endsTest, if_neg h, if_pos testing])
    · rename_i testing
      exact (vmod_eq_self (by simp only [Gauge.endsTest, if_neg h, if_neg testing])).symm

theorem endsTest_pos (x : Gauge) : x.endsTest.pos = x.pos := by
  unfold Gauge.endsTest
  split
  · rfl
  · split <;> rfl

/-- The end of the session leaves the gauges as they were, or each at the end of its test. -/
theorem endSession_ge (c : EndCause) (s : State) :
    (endSession c s).ge = s.ge ∨ (endSession c s).ge = vmap Gauge.endsTest s.ge := by
  have blocks : (endTestsAtBlocks c (report .testEnded 0 (val c.code) s)).ge = s.ge ∨
      (endTestsAtBlocks c (report .testEnded 0 (val c.code) s)).ge = vmap Gauge.endsTest s.ge := by
    rw [endTestsAtBlocks, (alertsEndTests_only _).ge]
    split
    · exact .inl rfl
    · exact .inr (forEach_gauges _ Gauge.endsTest fun g t _ => ⟨endGaugeTest_ge g t, (endGaugeTest_only t g).ci⟩)
  have tests : (endTests c s).ge = s.ge ∨ (endTests c s).ge = vmap Gauge.endsTest s.ge := by
    unfold endTests
    split
    · exact blocks
    · exact .inl rfl
  unfold endSession
  split
  · exact tests
  · exact .inl rfl

/-- Parking, after the end of tests or without: the position stands, a driven gauge turns to PARKING, one in HOLD resumes it. -/
theorem parks_of {x y : Gauge} (h : y = x ∨ y = x.endsTest) :
    y.parks.pos = x.pos ∧
      y.parks.pointer = (match x.pointer with
        | .unpowered => .unpowered
        | .hold => .hold
        | .homing | .sweep | .tracking | .test | .parking => .parking) ∧
      (x.pointer = .hold → y.parks.resume = some .parking) := by
  rcases h with rfl | rfl
  · cases h : y.pointer <;> simp [Gauge.parks, h]
  · have stands : x.endsTest.parks.pos = x.endsTest.pos := by
      unfold Gauge.parks
      split <;> rfl
    refine ⟨stands.trans (endsTest_pos x), ?_⟩
    by_cases testing : x.testing = true <;> cases h : x.pointer <;>
      simp [Gauge.endsTest, Gauge.parks, Gauge.leaveTest, testing, h]

/-! ## Doors and conversion at a change of state -/

theorem setDoorsClear_dm (on : Bool) (s : State) : (setDoorsClear on s).dm = { s.dm with doorsClear := on } := by
  unfold setDoorsClear
  split
  · rename_i h
    rw [← h]
  · rfl

theorem stopDoorTimers_leaf (s : State) (l : Fin 8) : (stopDoorTimers s).dm.leaves[l] =
    { s.dm.leaves[l] with travelT := none, lockT := none, closingT := none } := vmap_get _ _ l

/-- Exactly the comparators named are powered, and a latch without power is ARMED (R38, R41). -/
theorem powerComparators_get (on : Fin 24 → Bool) (s : State) (ch : Fin 24) :
    ((powerComparators on s).cu.comparator[ch] ≠ .unpowered ↔ on ch = true) ∧
      (powerComparators on s).cu.latch[ch] = (if on ch then s.cu.latch[ch] else .armed) := by
  refine ⟨?_, tab_get _ ch⟩
  have level : s.powerUpLevel ch ≠ .unpowered := by
    unfold State.powerUpLevel comparatorLevel
    split
    · decide
    · split
      · decide
      · split <;> decide
  have powered : (powerComparators on s).cu.comparator[ch] = if on ch then
      (if s.cu.comparator[ch] = .unpowered then s.powerUpLevel ch else s.cu.comparator[ch]) else .unpowered :=
    tab_get _ ch
  rw [powered]
  cases on ch with
  | false => simp
  | true =>
    simp only [if_true, iff_true]
    split
    · exact level
    · assumption

/-- The CU at entry to PARKED (R43). -/
theorem convPark_cu (s : State) : (convPark s).cu =
    { s.cu with inFlight := none, elapsedQ := 0, queue := [], runCount := 0, pos := .reference, path := .unpowered
                settleMs := 0, comparator := (convPark s).cu.comparator, latch := Vector.replicate 24 .armed } := rfl

/-! ## PARKED -/

/-- The blocks at entry to PARKED, before its reports. -/
def State.parkedBlocks (s : State) : State :=
  convPark (doorsPark (stopStandstill (s.modSc fun c =>
    { c with opState := .parked, watch := .quiet, newCycle := true, ignPending := false })))

/-- The entry to PARKED places its reports on those blocks and does no more. -/
theorem enterParked_settles (s : State) : Only [.reports, .free] s.parkedBlocks (enterParked s) :=
  Only.inFreeOrder (by
    intro u hu t
    simp only [List.mem_cons, List.not_mem_nil, or_false, Prod.mk.injEq] at hu
    rcases hu with ⟨-, rfl⟩ | ⟨-, rfl⟩
    · exact (reportState_only t).mono
    · exact (reportDropped_only t _).mono)

theorem parkedBlocks_parked (s : State) : s.EntersParked s.parkedBlocks where
  parked := ⟨rfl, rfl, rfl, rfl⟩
  kept := ⟨rfl, rfl, rfl, rfl, rfl, rfl, rfl, rfl, rfl, rfl⟩
  conv := ⟨rfl, rfl, rfl, rfl, rfl, rfl, rfl⟩
  latched ch := ⟨(powerComparators_get _ _ ch).1.trans decide_eq_true_iff, Vector.getElem_replicate ch.isLt⟩
  leaves l := by
    have leaf : s.parkedBlocks.dm.leaves[l] =
        { s.dm.leaves[l] with travelT := none, lockT := none, closingT := none, releaseRose := false } :=
      (vmap_get _ _ l).trans (by rw [stopDoorTimers_leaf]; rfl)
    rw [leaf]
    exact ⟨rfl, rfl, rfl, rfl, rfl, rfl, rfl, rfl⟩
  doors := ⟨rfl, rfl, rfl⟩

theorem enterParked_enters (s : State) : s.EntersParked (enterParked s) := by
  obtain ⟨parked, kept, conv, latched, leaves, doors⟩ := parkedBlocks_parked s
  rw [(enterParked_settles s).eq_link]
  exact ⟨parked, kept, conv, latched, leaves, doors⟩

theorem enterParked_watchSet (s : State) : (enterParked s).sc.watchSet = s.sc.watchSet := by
  rw [(enterParked_settles s).sc]
  rfl

theorem enterParked_transmitter (s : State) : (enterParked s).li.transmitter = s.li.transmitter :=
  (enterParked_only s).transmitter

/-- What START fixes and SHUTDOWN's completion marks is not what entry to PARKED keeps. -/
theorem EntersParked.ofKept {s s' t : State} (h : s'.EntersParked t) (sc : s'.sc.cycle = s.sc.cycle ∧
      s'.sc.opSeconds = s.sc.opSeconds ∧ s'.sc.ignOn = s.sc.ignOn)
    (dm : s'.dm = { s.dm with leaves := s'.dm.leaves }) (leaves : ∀ l : Fin 8,
      s'.dm.leaves[l] = { s.dm.leaves[l] with counted := s'.dm.leaves[l].counted })
    (others : s' = { s with sc := s'.sc, dm := s'.dm }) : s.EntersParked t := by
  obtain ⟨parked, kept, conv, latched, doorLeaves, doors⟩ := h
  obtain ⟨cycle, seconds, ign⟩ := sc
  rw [others] at kept conv
  refine ⟨parked, ?_, conv, latched, fun l => ?_, ?_⟩
  · obtain ⟨c, o, i, rest⟩ := kept
    exact ⟨c.trans cycle, o.trans seconds, i.trans ign, rest⟩
  · have same := doorLeaves l
    rw [leaves l] at same
    exact same
  · rw [dm] at doors
    exact doors

/-- The watch set of R27. -/
theorem inWatchSet_iff (s : State) (ch : Fin 24) : s.inWatchSet ch = true ↔
    s.ci.wired[ch].cfg.kind = .switch ∧ s.ci.wired[ch].cfg.watch = true ∧
      ∃ (l : Fin 8) (c : LeafCfg) (slot : Fin 5) (i : LeafInput), s.dm.leaves[l].cfg = some c ∧ c.watched = true ∧
        (slot = slotClosed ∨ slot = slotRelease) ∧ c.inputs[slot] = some i ∧ i.ch = wiredCh ch := by
  have named (c : LeafCfg) (slot : Fin 5) : c.wiredAt slot = some ch ↔
      ∃ i, c.inputs[slot] = some i ∧ i.ch = wiredCh ch := by
    simp [LeafCfg.wiredAt, Option.bind_eq_some_iff, asWired_eq_some]
  have leaf (l : Fin 8) : (match s.dm.leaves[l].cfg with
      | some c => c.watched && (decide (c.wiredAt slotClosed = some ch) || decide (c.wiredAt slotRelease = some ch))
      | none => false) = true ↔ ∃ (c : LeafCfg) (slot : Fin 5) (i : LeafInput), s.dm.leaves[l].cfg = some c ∧
        c.watched = true ∧ (slot = slotClosed ∨ slot = slotRelease) ∧ c.inputs[slot] = some i ∧ i.ch = wiredCh ch := by
    cases s.dm.leaves[l].cfg with
    | none => simp
    | some c =>
      simp only [Bool.and_eq_true, Bool.or_eq_true, decide_eq_true_eq, named]
      constructor
      · rintro ⟨watched, ⟨i, hi, hch⟩ | ⟨i, hi, hch⟩⟩
        · exact ⟨c, _, i, rfl, watched, .inl rfl, hi, hch⟩
        · exact ⟨c, _, i, rfl, watched, .inr rfl, hi, hch⟩
      · rintro ⟨c', slot, i, hc, watched, hslot, hi, hch⟩
        obtain rfl := Option.some.inj hc
        rcases hslot with rfl | rfl
        · exact ⟨watched, .inl ⟨i, hi, hch⟩⟩
        · exact ⟨watched, .inr ⟨i, hi, hch⟩⟩
  unfold State.inWatchSet
  rw [Bool.and_eq_true, List.any_eq_true]
  simp only [List.mem_finRange, true_and, WiredCfg.watched, Bool.and_eq_true, decide_eq_true_eq, and_assoc]
  exact and_congr_right fun _ => and_congr_right fun _ => exists_congr leaf

/-- SHUTDOWN completes when its three conditions hold (R23). -/
theorem exec_shutdownComplete {s : State} (shutdown : s.sc.opState = .shutdown)
    (rest : ∀ g : Fin 8, s.ge[g].pointer = .unpowered) (queue : s.jc.queue = [])
    (flight : s.jc.inFlight = none ∨ s.jc.inFlight = some .erase) (reclaim : s.jc.reclaim = .idle) :
    exec .shutdownComplete s = .next (completeShutdown s) := by
  refine nextIf_pos ?_ _ _
  have gauges : ((List.finRange 8).all fun g => decide (s.ge[g].pointer = .unpowered)) = true := by
    rw [List.all_eq_true]
    exact fun g _ => decide_eq_true (rest g)
  rw [State.shutdownDone, gauges, drained_of queue flight]
  simp [shutdown, reclaim]

theorem fixConfiguration_leaf (s : State) (l : Fin 8) :
    (fixConfiguration s).dm.leaves[l] = { s.dm.leaves[l] with counted := s.countedSlots s.dm.leaves[l] } := vmap_get _ _ l

/-- Settles O35: both ways run `enterParked`, from a state that differs in what PARKED does not keep. -/
theorem everyParkedEntryIsQuiet : Obligations.EveryParkedEntryIsQuiet := by
  refine fun s => ⟨fun tag taken config good off => ?_, fun shutdown rest queue flight reclaim none => ?_⟩
  · have fixed : s.EntersParked (enterParked (fixConfiguration s)) :=
      EntersParked.ofKept (enterParked_enters (fixConfiguration s)) ⟨rfl, rfl, rfl⟩ rfl (fun l => by
        rw [fixConfiguration_leaf]) rfl
    have watchSet : (enterParked (fixConfiguration s)).sc.watchSet = (List.finRange 24).filter s.inWatchSet :=
      enterParked_watchSet _
    refine ⟨(enterParked (fixConfiguration s)).replied 0x08 tag [], ?_, ?_, rfl, ?_, fun ch => ?_⟩
    · rw [exec_start_startable tag taken config good, if_neg (by simp [off]), sendReply_positive]
    · obtain ⟨parked, kept, conv, latched, leaves, doors⟩ := fixed
      exact ⟨parked, kept, conv, latched, leaves, doors⟩
    · show (enterParked (fixConfiguration s)).sc.watchSet.Pairwise _
      rw [watchSet]
      exact (List.pairwise_lt_finRange 24).filter _
    · show ch ∈ (enterParked (fixConfiguration s)).sc.watchSet ↔ _
      rw [watchSet, List.mem_filter, and_iff_right (List.mem_finRange ch)]
      exact inWatchSet_iff s ch
  · have completes : completeShutdown s = enterParked (s.modSc fun c => { c with newCycle := true }) :=
      if_neg (by simp [none])
    refine ⟨_, exec_shutdownComplete shutdown rest queue flight reclaim, ?_⟩
    rw [completes]
    exact ⟨EntersParked.ofKept (enterParked_enters _) ⟨rfl, rfl, rfl⟩ rfl (fun l => rfl) rfl, enterParked_watchSet _,
      enterParked_transmitter _⟩

/-! ## The responses to the end of RUN, in any order -/

/-- The gauges' and the doors' responses to the end of RUN, among units that place reports alone: every gauge responds,
DOORS_CLEAR is negated, and no other block changes. -/
theorem leaveOrder_settles {gauge : Fin 8 → State → State} {h : Gauge → Gauge}
    (here : ∀ g t, (gauge g t).ge = vmod t.ge g h) (only : ∀ g t, Only [.reports, .ge] t (gauge g t))
    (still : ∀ x : Gauge, x.pointer = .unpowered → h x = x) {pre : List (Bool × (State → State))}
    (reports : ∀ v, (true, v) ∈ pre → ∀ t, Only [.reports] t (v t)) (s : State) :
    let t := inFreeOrder (pre ++ [((List.finRange 8).any fun g => decide (s.ge[g].pointer ≠ .unpowered), forEach gauge),
      (s.dm.doorsClear, setDoorsClear false)]) s
    Only [.reports, .ge, .dm, .free] s t ∧ t.ge = vmap h s.ge ∧ t.dm = { s.dm with doorsClear := false } := by
  have gauges (t : State) : Only [.reports, .ge] t (forEach gauge t) := Only.forEach only
  intro t
  refine ⟨Only.inFreeOrder ?_, ?_, ?_⟩
  · intro u hu t
    rcases List.mem_append.1 hu with hu | hu
    · exact (reports u hu t).mono
    · simp only [List.mem_cons, List.not_mem_nil, or_false, Prod.mk.injEq] at hu
      rcases hu with ⟨-, rfl⟩ | ⟨-, rfl⟩
      · exact (gauges t).mono
      · exact (setDoorsClear_only t _).mono
  · refine inFreeOrder_at (fun t => t.ge = s.ge) (fun t => t.ge = vmap h s.ge) pre [_] rfl ?_ (fun _ t ht => ?_)
      fun idle t ht => ?_
    · intro v hv t
      rcases List.mem_append.1 hv with hv | hv
      · rw [(reports v hv t).ge]
        exact ⟨id, id⟩
      · simp only [List.mem_cons, List.not_mem_nil, or_false, Prod.mk.injEq] at hv
        rw [hv.2, (setDoorsClear_only t false).ge]
        exact ⟨id, id⟩
    · rw [forEach_gauges t h fun g u _ => ⟨here g u, (only g u).ci⟩, ht]
    · rw [ht]
      refine table_ext fun g => ?_
      have down : s.ge[g].pointer = .unpowered := by
        simpa using List.any_eq_false.1 idle g (List.mem_finRange g)
      rw [vmap_get, still _ down]
  · have split : pre ++ [((List.finRange 8).any fun g => decide (s.ge[g].pointer ≠ .unpowered), forEach gauge),
        (s.dm.doorsClear, setDoorsClear false)] =
        (pre ++ [((List.finRange 8).any fun g => decide (s.ge[g].pointer ≠ .unpowered), forEach gauge)]) ++
          (s.dm.doorsClear, setDoorsClear false) :: [] := by simp
    show (inFreeOrder _ s).dm = _
    rw [split]
    refine inFreeOrder_at (fun t => t.dm = s.dm) (fun t => t.dm = { s.dm with doorsClear := false }) _ [] rfl ?_
      (fun _ t ht => ?_) fun idle t ht => ?_
    · intro v hv t
      rw [List.append_nil, List.mem_append] at hv
      rcases hv with hv | hv
      · rw [(reports v hv t).dm]
        exact ⟨id, id⟩
      · simp only [List.mem_cons, List.not_mem_nil, or_false, Prod.mk.injEq] at hv
        rw [hv.2, (gauges t).dm]
        exact ⟨id, id⟩
    · rw [setDoorsClear_dm, ht]
    · rw [ht, ← idle]

/-! ## SHUTDOWN (R22) -/

/-- What SHUTDOWN queues and sets once the session is over. -/
def State.shutdownQueued (s : State) : State :=
  queueDoorStats (stopStandstill ((queueCycle s).modSc fun c =>
    { c with cycleInterval := 0, ignPending := false, opState := .shutdown }))

theorem enterShutdown_eq (s : State) : enterShutdown s =
    let e := warningsLeaveRun (endSession .shutdown s).shutdownQueued
    inFreeOrder ([(true, reportState)] ++ [((List.finRange 8).any fun g => decide (e.ge[g].pointer ≠ .unpowered),
      forEach parkGauge), (e.dm.doorsClear, setDoorsClear false)]) e := by
  dsimp only [enterShutdown, State.shutdownQueued, List.cons_append, List.nil_append]

/-- The entry to SHUTDOWN parks the gauges, negates DOORS_CLEAR, places its reports and does no more. -/
theorem enterShutdown_settles (s : State) :
    let e := warningsLeaveRun (endSession .shutdown s).shutdownQueued
    Only [.reports, .ge, .dm, .free] e (enterShutdown s) ∧ (enterShutdown s).ge = vmap Gauge.parks e.ge ∧
      (enterShutdown s).dm = { e.dm with doorsClear := false } := by
  rw [enterShutdown_eq]
  generalize warningsLeaveRun (endSession .shutdown s).shutdownQueued = e
  exact leaveOrder_settles parkGauge_ge (fun g t => parkGauge_only t g) (fun x h => by simp only [Gauge.parks, h])
    (fun v hv t => by
      simp only [List.mem_cons, List.not_mem_nil, or_false, Prod.mk.injEq] at hv
      rw [hv.2]
      exact reportState_only t) e

theorem holdsRecord_congr {s t : State} {c : Content} (jc : t.jc = s.jc) (h : s.holdsRecord c) : t.holdsRecord c := by
  simpa only [State.holdsRecord, jc] using h

/-- The records that SHUTDOWN queues wait or are being programmed (R22). -/
theorem shutdownQueued_holds (s : State) : s.shutdownQueued.holdsRecord (.cycle s.sc.cycle s.sc.opSeconds) ∧
    s.shutdownQueued.holdsRecord (.doorStats s.dm.stats) := by
  have cycle : (queueCycle s).holdsRecord (.cycle s.sc.cycle s.sc.opSeconds) := queueRecord_holds rfl s
  have other : (Content.cycle s.sc.cycle s.sc.opSeconds).key ≠ (Content.doorStats s.dm.stats).key := nofun
  exact ⟨queueRecord_keeps rfl other (holdsRecord_congr rfl cycle), queueRecord_holds rfl _⟩

/-- SHUTDOWN's records and settings leave these blocks as they give. -/
theorem shutdownQueued_sc (s : State) :
    s.shutdownQueued.sc = { s.sc with cycleInterval := 0, ignPending := false, opState := .shutdown } := rfl

theorem shutdownQueued_only (s : State) : Only [.sc, .service, .ci, .jc] s s.shutdownQueued :=
  (((queueCycle_only s).mono.andThen (modSc_only _ _)).andThen (stopStandstill_only _)).andThen (queueDoorStats_only _)

/-- The service flag off is all the end of a session changes in the State Controller. -/
theorem endSession_sc {s : State} (tests : s.testsInForce = true → s.sc.service = true) (c : EndCause) :
    (endSession c s).sc = { s.sc with service := false } := by
  have off := (endSession_ends tests c).1
  have bare : (endSession c s).sc.bare = s.sc.bare := (endSession_only s c).scBare
  cases hs : s.sc
  cases ht : (endSession c s).sc
  simp_all [Controller.bare]

/-- The FM's absences are the same from a state with the same warnings and faults. -/
theorem handsWarningAbsences_congr {s s' t t' : State} (inst : s'.wm.inst = s.wm.inst) (defs : s'.wm.defs = s.wm.defs)
    (before : s'.fm = s.fm) (after : t'.fm = t.fm) (h : s.handsWarningAbsences t) : s'.handsWarningAbsences t' := by
  simpa only [State.handsWarningAbsences, inst, defs, before, after] using h

/-- What entry to SHUTDOWN leaves in the blocks, from a state whose tests stand with its session (R22). -/
structure State.EntersShutdown (s t : State) : Prop where
  sc      : t.sc = { s.sc with opState := .shutdown, service := false, cycleInterval := 0, ignPending := false }
  outside : t.outsideRun
  cycle   : t.holdsRecord (.cycle s.sc.cycle s.sc.opSeconds)
  stats   : t.holdsRecord (.doorStats s.dm.stats)
  kept    : t.cu = s.cu ∧ t.ci = { s.ci with standstillT := none } ∧ t.dm = { s.dm with doorsClear := false } ∧
    t.wm.defs = s.wm.defs ∧ t.wm.floor = s.wm.floor ∧ t.pending = s.pending
  absent  : s.handsWarningAbsences t
  gauges  : ∀ g : Fin 8, ∃ y, (y = s.ge[g] ∨ y = s.ge[g].endsTest) ∧ t.ge[g] = y.parks

theorem enterShutdown_enters {s : State} (tests : s.testsInForce = true → s.sc.service = true) :
    s.EntersShutdown (enterShutdown s) := by
  obtain ⟨settled, gauges, doors⟩ := enterShutdown_settles s
  have session := endSession_only s .shutdown
  have sessionSc := endSession_sc tests .shutdown
  have sessionGe := endSession_ge .shutdown s
  obtain ⟨-, untested⟩ := endSession_ends tests .shutdown
  generalize endSession .shutdown s = a at *
  have queued := shutdownQueued_only a
  have queuedSc := shutdownQueued_sc a
  have ci : a.shutdownQueued.ci = { a.ci with standstillT := none } := rfl
  obtain ⟨cycle, stats⟩ := shutdownQueued_holds a
  obtain ⟨last, defs, floor, absences⟩ := warningsLeaveRun_leaves a.shutdownQueued
  have silenced : (warningsLeaveRun a.shutdownQueued).silenced :=
    warningsLeaveRun_silences (by rw [queuedSc]; nofun) (by rw [queued.ao]; exact untested)
  have sc : (enterShutdown s).sc =
      { s.sc with opState := .shutdown, service := false, cycleInterval := 0, ignPending := false } := by
    rw [settled.sc, last.sc, queuedSc, sessionSc]
  have jc : (enterShutdown s).jc = a.shutdownQueued.jc := by rw [settled.jc, last.jc]
  have dm : (warningsLeaveRun a.shutdownQueued).dm = s.dm := by rw [last.dm, queued.dm, session.dm]
  rw [sessionSc] at cycle
  rw [session.dm] at stats
  refine ⟨sc, ?_, holdsRecord_congr jc cycle, holdsRecord_congr jc stats, ⟨?_, ?_, ?_, ?_, ?_, ?_⟩, ?_, fun g => ?_⟩
  · exact outsideRun_of (by rw [sc]) (by rw [doors]) (silenced_congr settled.wm settled.ao silenced)
  · rw [settled.cu, last.cu, queued.cu, session.cu]
  · rw [settled.ci, last.ci, ci, session.ci]
  · rw [doors, dm]
  · rw [settled.wm, defs, queued.wm, session.wm]
  · rw [settled.wm, floor, queued.wm, session.wm]
  · rw [settled.pending, last.pending, queued.pending, session.pending]
  · exact handsWarningAbsences_congr (by rw [queued.wm, session.wm]) (by rw [queued.wm, session.wm])
      (by rw [queued.fm, session.fm]) settled.fm absences
  · have ge : (enterShutdown s).ge = vmap Gauge.parks a.ge := by rw [gauges, last.ge, queued.ge]
    refine ⟨a.ge[g], ?_, ?_⟩
    · rcases sessionGe with e | e <;> simp only [e, vmap_get, true_or, or_true]
    · simp only [ge, vmap_get]

/-- Settles O36: OFF is confirmed and reported, then `enterShutdown_enters`. -/
theorem ignitionOffEntersShutdown : Obligations.IgnitionOffEntersShutdown := by
  intro s sound run raw on steady
  obtain ⟨-, -, -, -, -, -, tests, -⟩ := sound
  have off : ignitionOff s = enterShutdown (report .ignition 0 (val 0) (s.modSc fun c => { c with ignOn := false })) := by
    simp only [ignitionOff, report_sc, State.modSc_sc, run]
  obtain ⟨sc, outside, cycle, stats, ⟨cu, ci, dm, defs, floor, pending⟩, absent, gauges⟩ :=
    enterShutdown_enters (s := report .ignition 0 (val 0) (s.modSc fun c => { c with ignOn := false })) tests
  have line := (enterShutdown_only (report .ignition 0 (val 0) (s.modSc fun c => { c with ignOn := false }))).transmitter
  rw [exec_ignitionOff raw on steady, off]
  generalize enterShutdown _ = t at *
  refine ⟨t, rfl, ?_⟩
  rw [sc, dm]
  refine ⟨rfl, rfl, rfl, rfl, rfl, rfl, rfl, outside, cycle, stats, cu, ci, rfl, rfl, defs, floor, absent, fun g => ?_, line,
    pending⟩
  obtain ⟨y, hy, parked⟩ := gauges g
  rw [parked]
  exact parks_of hy

/-! ## STOP (R24) -/

theorem exec_stop {s : State} (tag : Byte) (taken : s.taking) (state : s.sc.opState = .run ∨ s.sc.opState = .parked) :
    exec (.stop tag []) s = .next (sendReply 0x09 tag (stop s).2 (stop s).1) :=
  congrArg _ (reqStop.serve_accepted tag taken rfl (by rcases state with h | h <;> rw [h] <;> rfl) nofun)

/-- The CU at STOP (R44). -/
theorem convStop_get (s : State) (ch : Fin 24) :
    (convStop s).cu.comparator[ch] = .unpowered ∧ (convStop s).cu.latch[ch] = .armed :=
  ⟨Vector.getElem_replicate ch.isLt, Vector.getElem_replicate ch.isLt⟩

/-- Conversion as STOP leaves it (R44). -/
structure State.ConversionStopped (s t : State) : Prop where
  aborted : t.cu.inFlight = none ∧ t.cu.queue = [] ∧ t.cu.runCount = 0 ∧ t.cu.pos = .reference ∧ t.cu.path = .unpowered
  kept    : t.cu.scan = s.cu.scan ∧ t.cu.lastResult = s.cu.lastResult
  powered : ∀ ch : Fin 24, t.cu.comparator[ch] = .unpowered ∧ t.cu.latch[ch] = .armed

theorem conversionStopped_of {s u t : State} (before : u.cu = s.cu) (after : t.cu = (convStop u).cu) :
    s.ConversionStopped t := by
  refine ⟨?_, ?_, fun ch => ?_⟩
  · rw [after]
    exact ⟨rfl, rfl, rfl, rfl, rfl⟩
  · rw [after, ← before]
    exact ⟨rfl, rfl⟩
  · simp only [after]
    exact convStop_get u ch

/-- STOP's settings once the session is over. -/
def State.stopSettled (s : State) : State :=
  convStop (stopDoorTimers (stopStandstill (s.modSc fun c => { c with opState := .config })))

theorem stopSettled_only (s : State) : Only [.sc, .service, .cu, .ci, .dm] s s.stopSettled :=
  (((modSc_only s _).mono.andThen (stopStandstill_only _)).andThen (stopDoorTimers_only _)).andThen (convStop_only _)

theorem stopFromRun_eq (s : State) : stopFromRun s =
    let a := endSession .stop s
    let e := warningsLeaveRun a.stopSettled
    inFreeOrder ([(true, reportState), (!a.cu.dropped.isEmpty, reportDropped a.cu.dropped)] ++
      [((List.finRange 8).any fun g => decide (e.ge[g].pointer ≠ .unpowered), forEach stopGauge),
        (e.dm.doorsClear, setDoorsClear false)]) e := by
  dsimp only [stopFromRun, State.stopSettled, List.cons_append, List.nil_append]

/-- STOP in RUN stops the gauges, negates DOORS_CLEAR, places its reports and does no more after the warnings' response. -/
theorem stopFromRun_settles (s : State) :
    let e := warningsLeaveRun (endSession .stop s).stopSettled
    Only [.reports, .ge, .dm, .free] e (stopFromRun s) ∧ (stopFromRun s).ge = vmap Gauge.stopped e.ge ∧
      (stopFromRun s).dm = { e.dm with doorsClear := false } := by
  rw [stopFromRun_eq]
  dsimp only
  generalize warningsLeaveRun (endSession .stop s).stopSettled = e
  exact leaveOrder_settles stopGauge_ge (fun g t => stopGauge_only t g) (fun x h => if_pos h)
    (fun v hv t => by
      simp only [List.mem_cons, List.not_mem_nil, or_false, Prod.mk.injEq] at hv
      rcases hv with ⟨-, rfl⟩ | ⟨-, rfl⟩
      · exact reportState_only t
      · exact reportDropped_only t _) e

/-- What STOP in RUN leaves in the blocks, from a state whose tests stand with its session (R24). -/
structure State.StopsRun (s t : State) : Prop where
  sc      : t.sc = { s.sc with opState := .config, service := false }
  conv    : s.ConversionStopped t
  outside : t.outsideRun
  kept    : t.jc = s.jc ∧ t.wm.defs = s.wm.defs ∧ t.ci = { s.ci with standstillT := none } ∧ t.dm.stats = s.dm.stats
  absent  : s.handsWarningAbsences t
  leaves  : ∀ l : Fin 8, t.dm.leaves[l] = { s.dm.leaves[l] with travelT := none, lockT := none, closingT := none }
  gauges  : ∀ g : Fin 8, t.ge[g] = s.ge[g].stopped

theorem stopFromRun_stops {s : State} (tests : s.testsInForce = true → s.sc.service = true) :
    s.StopsRun (stopFromRun s) := by
  obtain ⟨settled, gauges, doors⟩ := stopFromRun_settles s
  have session := endSession_stop_only s
  have sessionSc := endSession_sc tests .stop
  obtain ⟨-, untested⟩ := endSession_ends tests .stop
  generalize endSession .stop s = a at *
  have before := stopSettled_only a
  have beforeSc : a.stopSettled.sc = { a.sc with opState := .config } := rfl
  have ci : a.stopSettled.ci = { a.ci with standstillT := none } := rfl
  have stats : a.stopSettled.dm.stats = a.dm.stats := rfl
  have leaf (l : Fin 8) : a.stopSettled.dm.leaves[l] =
      { a.dm.leaves[l] with travelT := none, lockT := none, closingT := none } := stopDoorTimers_leaf _ l
  obtain ⟨last, defs, -, absences⟩ := warningsLeaveRun_leaves a.stopSettled
  have silenced : (warningsLeaveRun a.stopSettled).silenced :=
    warningsLeaveRun_silences (by rw [beforeSc]; nofun) (by rw [before.ao]; exact untested)
  have sc : (stopFromRun s).sc = { s.sc with opState := .config, service := false } := by
    rw [settled.sc, last.sc, beforeSc, sessionSc]
  refine ⟨sc, ?_, ?_, ⟨?_, ?_, ?_, ?_⟩, ?_, fun l => ?_, fun g => ?_⟩
  · exact conversionStopped_of (u := stopDoorTimers (stopStandstill (a.modSc fun c => { c with opState := .config })))
      session.cu (settled.cu.trans last.cu)
  · exact outsideRun_of (by rw [sc]) (by rw [doors]) (silenced_congr settled.wm settled.ao silenced)
  · rw [settled.jc, last.jc, before.jc, session.jc]
  · rw [settled.wm, defs, before.wm, session.wm]
  · rw [settled.ci, last.ci, ci, session.ci]
  · rw [doors, last.dm, stats, session.dm]
  · exact handsWarningAbsences_congr (by rw [before.wm, session.wm]) (by rw [before.wm, session.wm])
      (by rw [before.fm, session.fm]) settled.fm absences
  · have same : (stopFromRun s).dm.leaves = a.stopSettled.dm.leaves := by rw [doors, last.dm]
    simp only [same, leaf, session.dm]
  · have ge : (stopFromRun s).ge = vmap Gauge.stopped s.ge := by rw [gauges, last.ge, before.ge, session.ge]
    simp only [ge, vmap_get]

/-- A stopped gauge is UNPOWERED where it stands. -/
theorem stopped_stands (x : Gauge) : x.stopped.pointer = .unpowered ∧ x.stopped.pos = x.pos ∧ x.stopped.acc = x.acc ∧
    x.stopped.display = x.display := by
  unfold Gauge.stopped
  split
  · rename_i h
    exact ⟨h, rfl, rfl, rfl⟩
  · exact ⟨rfl, rfl, rfl, rfl⟩

/-- STOP in PARKED ends conversion and the watch, and places its reports. -/
theorem stopFromParked_settles (s : State) : Only [.reports, .free]
    (convStop (s.modSc fun c => { c with opState := .config, watch := .quiet })) (stopFromParked s) :=
  Only.inFreeOrder (by
    intro u hu t
    simp only [List.mem_cons, List.not_mem_nil, or_false, Prod.mk.injEq] at hu
    rcases hu with ⟨-, rfl⟩ | ⟨-, rfl⟩
    · exact (reportState_only t).mono
    · exact (reportDropped_only t _).mono)

theorem stop_moving {s : State} (run : s.sc.opState = .run) (moving : s.ci.motion ≠ .standstill) :
    stop s = refuse .notStandstill s := by
  rw [stop, if_neg (by simp [run]), if_pos moving]

theorem stop_run {s : State} (run : s.sc.opState = .run) (still : s.ci.motion = .standstill) :
    stop s = done (stopFromRun s) := by
  rw [stop, if_neg (by simp [run]), if_neg (by simp [still])]

theorem stop_parked {s : State} (parked : s.sc.opState = .parked) : stop s = done (stopFromParked s) := if_pos parked

/-- Settles O38: `stopFromRun_stops` and `stopFromParked_settles`, with the reply. -/
theorem stopEntersConfig : Obligations.StopEntersConfig := by
  intro s tag taken sound
  obtain ⟨-, -, -, -, -, -, tests, -⟩ := sound
  refine ⟨fun run moving => ?_, fun state => ?_⟩
  · rw [exec_stop tag taken (.inl run), stop_moving run moving, sendReply_refused]
    rfl
  rcases state with ⟨run, still⟩ | parked
  · obtain ⟨sc, ⟨⟨flight, queue, count, pos, path⟩, ⟨scan, last⟩, powered⟩, outside, ⟨jc, defs, ci, stats⟩, absent, leaves,
      gauges⟩ := stopFromRun_stops tests
    rw [exec_stop tag taken (.inl run), stop_run run still, sendReply_positive]
    generalize stopFromRun s = t at *
    refine ⟨t.replied 0x09 tag [], rfl, ?_⟩
    have scR : (t.replied 0x09 tag []).sc = { s.sc with opState := .config, service := false } := sc
    have ciR : (t.replied 0x09 tag []).ci = { s.ci with standstillT := none } := ci
    rw [scR, ciR]
    refine ⟨rfl, rfl, rfl, rfl, rfl, rfl, flight, queue, count, pos, path, scan, last, powered, jc, stats, defs, rfl, rfl, rfl,
      fun _ => ⟨outside, absent, fun l => ?_, fun g => ?_⟩, fun parked => absurd (run.symm.trans parked) (by decide)⟩
    · have leaf : (t.replied 0x09 tag []).dm.leaves[l] = _ := leaves l
      rw [leaf]
      exact ⟨rfl, rfl, rfl, rfl⟩
    · have gauge : (t.replied 0x09 tag []).ge[g] = _ := gauges g
      rw [gauge]
      exact stopped_stands _
  · have settled := stopFromParked_settles s
    have sc : (stopFromParked s).sc = { s.sc with opState := .config, watch := .quiet } := settled.sc
    obtain ⟨⟨flight, queue, count, pos, path⟩, ⟨scan, last⟩, powered⟩ :=
      conversionStopped_of (u := s.modSc fun c => { c with opState := .config, watch := .quiet }) rfl settled.cu
    have ci : (stopFromParked s).ci = s.ci := settled.ci
    have dm : (stopFromParked s).dm = s.dm := settled.dm
    have wm : (stopFromParked s).wm = s.wm := settled.wm
    have rest : (stopFromParked s).ge = s.ge ∧ (stopFromParked s).ao = s.ao ∧ (stopFromParked s).fm = s.fm ∧
        (stopFromParked s).jc = s.jc := ⟨settled.ge, settled.ao, settled.fm, settled.jc⟩
    obtain ⟨ge, ao, fm, jc⟩ := rest
    rw [exec_stop tag taken (.inr parked), stop_parked parked, sendReply_positive]
    generalize stopFromParked s = t at *
    refine ⟨t.replied 0x09 tag [], rfl, ?_⟩
    have scR : (t.replied 0x09 tag []).sc = { s.sc with opState := .config, watch := .quiet } := sc
    have ciR : (t.replied 0x09 tag []).ci = s.ci := ci
    have dmR : (t.replied 0x09 tag []).dm = s.dm := dm
    have wmR : (t.replied 0x09 tag []).wm = s.wm := wm
    rw [scR, ciR, dmR, wmR]
    exact ⟨rfl, rfl, rfl, rfl, rfl, rfl, flight, queue, count, pos, path, scan, last, powered, jc, rfl, rfl, rfl, rfl, rfl,
      fun run => absurd (parked.symm.trans run) (by decide), fun _ => ⟨rfl, ge, rfl, ao, rfl, fm, rfl⟩⟩

end Sys2Proof.Machine
end

section
/-! PROOFS. The rebuild (R26, R141, R164, R172 to R174): the records read back, the newest of a kind, the live fault entries, and
the 32 of them that the victim order leaves. -/

namespace Sys2Proof.Machine

set_option Elab.async false

/-! ## The records read back (R173) -/

theorem mem_records {j : Journal} {r : Record} :
    r ∈ j.records ↔ ∃ i : Fin 4, Slot.record r ∈ j.sectors[i].slots := by
  simp only [Journal.records, List.mem_flatMap, List.mem_finRange, true_and, Sector.records, List.mem_filterMap]
  refine exists_congr fun i => ⟨?_, fun h => ⟨_, h, rfl⟩⟩
  rintro ⟨slot, h, e⟩
  cases slot with
  | record x =>
    obtain rfl : x = r := by simpa using e
    exact h
  | void => simp at e

/-- One sector in the search for the best sector sequence. -/
def Journal.pickStep (j : Journal) (better : Nat → Nat → Bool) (acc : Option (Fin 4 × Nat)) (i : Fin 4) :
    Option (Fin 4 × Nat) :=
  match j.sectors[i].seq?, acc with
  | some n, some (k, m) => if better n m then some (i, n) else some (k, m)
  | some n, none => some (i, n)
  | none, _ => acc

theorem pick_eq (j : Journal) (better : Nat → Nat → Bool) (is : List (Fin 4)) :
    j.pick better is = is.foldl (j.pickStep better) none := rfl

/-- Once a sector is picked, some sector stays picked. -/
theorem pickStep_some (j : Journal) (better : Nat → Nat → Bool) (is : List (Fin 4)) (x : Fin 4 × Nat) :
    is.foldl (j.pickStep better) (some x) ≠ none := by
  induction is generalizing x with
  | nil => simp
  | cons i is ih =>
    have next : ∃ y, j.pickStep better (some x) i = some y := by
      unfold Journal.pickStep
      cases j.sectors[i].seq? with
      | none => exact ⟨_, rfl⟩
      | some n => dsimp only; split <;> exact ⟨_, rfl⟩
    obtain ⟨y, hy⟩ := next
    rw [List.foldl_cons, hy]
    exact ih y

/-- Where nothing is picked, no sector of the range has a sector sequence. -/
theorem pick_none {j : Journal} {better : Nat → Nat → Bool} {is : List (Fin 4)} (h : j.pick better is = none) :
    ∀ i ∈ is, j.sectors[i].seq? = none := by
  rw [pick_eq] at h
  induction is with
  | nil => simp
  | cons i is ih =>
    rw [List.foldl_cons] at h
    cases hs : j.sectors[i].seq? with
    | some n =>
      have first : j.pickStep better none i = some (i, n) := by simp only [Journal.pickStep, hs]
      exact absurd (first ▸ h) (pickStep_some j better is _)
    | none =>
      have first : j.pickStep better none i = none := by simp only [Journal.pickStep, hs]
      rw [first] at h
      exact List.forall_mem_cons.2 ⟨hs, ih h⟩

/-- A sector as the rebuild leaves it: erased again where its header is unreadable. -/
def Sector.readAgain (x : Sector) : Sector := if x.header = .unreadable then .erased else x

theorem readAgain_slots (x : Sector) : x.readAgain.slots = if x.header = .unreadable then [] else x.slots := by
  unfold Sector.readAgain
  split <;> rfl

theorem readAgain_seq (x : Sector) : x.readAgain.seq? = x.seq? := by
  unfold Sector.readAgain
  split
  · rename_i h
    simp [Sector.seq?, Sector.erased, h]
  · rfl

/-- The slots the rebuild leaves are those of the sectors whose header is readable. -/
theorem readBack_slots {j : Journal} (blank : ∀ i : Fin 4, j.sectors[i].header = .blank → j.sectors[i].slots = [])
    (i : Fin 4) : j.readBack.sectors[i].slots = j.sectors[i].readAgain.slots := by
  set k : Journal := { j with
    sectors := vmap (fun x : Sector => if x.header = .unreadable then Sector.erased else x) j.sectors
    queue := [], inFlight := none, opMs := 0, reclaim := .idle, row := j.row.afterQueueLost } with k_eq
  have sector (i : Fin 4) : k.sectors[i] = j.sectors[i].readAgain := vmap_get _ _ i
  have back : j.readBack = (match k.pick (fun a b => decide (b < a)) (List.finRange 4) with
      | some (i, n) => { k with head := i, nextSector := n + 1
                                nextRec := highest (k.row.seq :: k.records.map (fun r : Record => r.seq)) + 1 }
      | none => { k with sectors := vset k.sectors 0 { header := .sequence 1, slots := [] }
                         head := 0, nextRec := 1, nextSector := 2 }) := rfl
  cases picked : k.pick (fun a b => decide (b < a)) (List.finRange 4) with
  | some p =>
    rw [back, picked]
    exact congrArg Sector.slots (sector i)
  | none =>
    have unread := pick_none picked 0 (List.mem_finRange 0)
    rw [sector, readAgain_seq] at unread
    rw [back, picked]
    dsimp only
    rw [vset_get]
    split
    · rename_i first
      subst first
      rw [readAgain_slots]
      cases header : j.sectors[(0 : Fin 4)].header with
      | blank => simp only [blank 0 header, ite_self]
      | unreadable => rfl
      | sequence n => simp only [Sector.seq?, header, reduceCtorEq] at unread
    · exact congrArg Sector.slots (sector i)

/-- The rebuild reads the complete records of the readable sectors. -/
theorem mem_readBack {j : Journal} (blank : ∀ i : Fin 4, j.sectors[i].header = .blank → j.sectors[i].slots = [])
    {r : Record} : r ∈ j.readBack.records ↔ j.reads r := by
  rw [mem_records]
  refine exists_congr fun i => ?_
  rw [readBack_slots blank, readAgain_slots]
  by_cases unreadable : j.sectors[i].header = .unreadable
  · rw [if_pos unreadable]
    exact iff_of_false List.not_mem_nil fun h => h.1 unreadable
  · rw [if_neg unreadable]
    refine ⟨fun h => ⟨unreadable, ?_, h⟩, fun h => h.2.2⟩
    by_cases isBlank : j.sectors[i].header = .blank
    · exact .inr (blank i isBlank)
    · exact .inl isBlank

theorem readBack_queue (j : Journal) : j.readBack.queue = [] := by
  unfold Journal.readBack
  dsimp only
  split <;> rfl

theorem readBack_row (j : Journal) : j.readBack.row = j.row.afterQueueLost := by
  unfold Journal.readBack
  dsimp only
  split <;> rfl

/-- The identity handed over is that of a WRITTEN row (R174). -/
theorem readBack_identity (j : Journal) : j.readBack.identity = (match j.row with
    | .written _ chars => some chars
    | .blank | .programming | .spoiled => none) := by
  rw [Journal.identity, readBack_row]
  cases j.row <;> rfl

/-! ## The newest of a kind (R26, R141) -/

/-- One record in the search for the newest content that `f` accepts. -/
def newestStep {α : Type} (f : Content → Option α) (acc : Option (Nat × α)) (r : Record) : Option (Nat × α) :=
  match f r.content, acc with
  | some a, some (n, b) => if n ≤ r.seq then some (r.seq, a) else some (n, b)
  | some a, none => some (r.seq, a)
  | none, _ => acc

theorem newestContent_eq {α : Type} (rs : List Record) (f : Content → Option α) :
    newestContent rs f = (rs.foldl (newestStep f) none).map (·.2) := rfl

theorem newestStep_skips {α : Type} {f : Content → Option α} {r : Record} (h : f r.content = none)
    (acc : Option (Nat × α)) : newestStep f acc r = acc := by simp only [newestStep, h]

theorem newestContent_none {α : Type} {rs : List Record} {f : Content → Option α}
    (h : ∀ r ∈ rs, f r.content = none) : newestContent rs f = none := by
  rw [newestContent_eq]
  have fold : rs.foldl (newestStep f) none = none := by
    induction rs with
    | nil => rfl
    | cons r rs ih =>
      rw [List.foldl_cons, newestStep_skips (h r List.mem_cons_self)]
      exact ih fun x hx => h x (List.mem_cons_of_mem _ hx)
  rw [fold]
  rfl

/-- What the search holds is older than a record, or is that record's. -/
def Below {α : Type} (n : Nat) (a : α) (acc : Option (Nat × α)) : Prop := ∀ p, acc = some p → p.1 < n ∨ p = (n, a)

/-- A record newer than all others that `f` accepts gives the content. -/
theorem newestContent_some {α : Type} {rs : List Record} {f : Content → Option α} {r : Record} {a : α} (mem : r ∈ rs)
    (accepted : f r.content = some a) (newest : ∀ x ∈ rs, (f x.content).isSome → x = r ∨ x.seq < r.seq) :
    newestContent rs f = some a := by
  rw [newestContent_eq]
  have takes (acc : Option (Nat × α)) (h : Below r.seq a acc) : newestStep f acc r = some (r.seq, a) := by
    rcases acc with _ | ⟨n, b⟩
    · simp only [newestStep, accepted]
    · simp only [newestStep, accepted]
      rcases h _ rfl with lt | e
      · rw [if_pos (Nat.le_of_lt lt)]
      · obtain ⟨rfl, rfl⟩ := Prod.mk.inj e
        exact ite_self _
  have keeps (x : Record) (hx : (f x.content).isSome → x = r ∨ x.seq < r.seq) :
      newestStep f (some (r.seq, a)) x = some (r.seq, a) := by
    cases hf : f x.content with
    | none => exact newestStep_skips hf _
    | some b =>
      rcases hx (by simp [hf]) with rfl | lt
      · exact takes _ fun p hp => .inr (Option.some.inj hp).symm
      · simp only [newestStep, hf, if_neg (Nat.not_le.2 lt)]
  have stays (x : Record) (hx : (f x.content).isSome → x = r ∨ x.seq < r.seq) (acc : Option (Nat × α)) (h : Below r.seq a acc) :
      Below r.seq a (newestStep f acc x) := by
    cases hf : f x.content with
    | none => rwa [newestStep_skips hf]
    | some b =>
      rcases hx (by simp [hf]) with rfl | lt
      · rw [takes acc h]
        exact fun p hp => .inr (Option.some.inj hp).symm
      · rcases acc with _ | ⟨n, c⟩
        · simp only [newestStep, hf]
          exact fun p hp => .inl (Option.some.inj hp ▸ lt)
        · simp only [newestStep, hf]
          split
          · exact fun p hp => .inl (Option.some.inj hp ▸ lt)
          · exact h
  obtain ⟨before, after, rfl⟩ := List.append_of_mem mem
  have reached : ∀ (l : List Record) (acc : Option (Nat × α)), (∀ x ∈ l, x ∈ before ++ r :: after) →
      Below r.seq a acc → Below r.seq a (l.foldl (newestStep f) acc) := by
    intro l
    induction l with
    | nil => exact fun acc _ h => h
    | cons x l ih =>
      intro acc sub h
      exact ih _ (fun y hy => sub y (List.mem_cons_of_mem _ hy))
        (stays x (newest x (sub x List.mem_cons_self)) acc h)
  have held : ∀ (l : List Record), (∀ x ∈ l, x ∈ before ++ r :: after) →
      l.foldl (newestStep f) (some (r.seq, a)) = some (r.seq, a) := by
    intro l
    induction l with
    | nil => exact fun _ => rfl
    | cons x l ih =>
      intro sub
      rw [List.foldl_cons, keeps x (newest x (sub x List.mem_cons_self))]
      exact ih fun y hy => sub y (List.mem_cons_of_mem _ hy)
  rw [List.foldl_append, List.foldl_cons,
    takes _ (reached before none (fun x hx => List.mem_append_left _ hx) nofun),
    held after fun x hx => List.mem_append_right _ (List.mem_cons_of_mem _ hx)]
  rfl

/-! ## The live fault entries (R172, R174) -/

/-- A record that the rebuild hands over: live, and the newest of its key. -/
def Record.handed (cycle : Nat) (rs : List Record) (r : Record) (e : FaultEntry) : Prop :=
  r ∈ rs ∧ r.content = .faultEntry e ∧ live cycle rs r = true ∧ newestOfKey rs r = true

theorem Content.key_fault {c : Content} {src : FaultSource} : c.key = .fault src ↔ ∃ e, c = .faultEntry e ∧ e.src = src := by
  cases c <;> simp [Content.key]

theorem displacesSource_iff {r : Record} {src : FaultSource} :
    r.displacesSource src = true ↔ ∃ e, r.content = .faultEntry e ∧ e.displaces = some src := by
  unfold Record.displacesSource
  cases r.content <;> simp

/-- The model's test of a live newest record is what R172 says of it. -/
theorem handed_iff {j : Journal} {cycle : Nat} {rs : List Record} (reads : ∀ r, r ∈ rs ↔ j.reads r) {r : Record}
    {e : FaultEntry} : r.handed cycle rs e ↔ j.handsOver cycle r e := by
  have marks : (rs.all fun x => decide (x.content.key ≠ .clearMark) || decide (x.seq < r.seq)) = true ↔
      ∀ x, j.reads x → x.content = .clearMark → x.seq < r.seq := by
    have key (c : Content) : c.key = .clearMark ↔ c = .clearMark := by cases c <;> simp [Content.key]
    simp only [List.all_eq_true, Bool.or_eq_true, decide_eq_true_eq, reads, ne_eq, key, imp_iff_not_or]
  have displaced : (rs.all fun x => !(decide (r.seq < x.seq) && x.displacesSource e.src)) = true ↔
      ∀ (x : Record) (f : FaultEntry), j.reads x → x.content = .faultEntry f → f.displaces = some e.src →
        x.seq ≤ r.seq := by
    simp only [List.all_eq_true, reads, Bool.not_eq_true', Bool.and_eq_false_iff, decide_eq_false_iff_not, Nat.not_lt]
    refine ⟨fun h x f hx hc hd => ?_, fun h x hx => ?_⟩
    · exact (h x hx).resolve_right (by simp [displacesSource_iff.2 ⟨f, hc, hd⟩])
    · by_cases d : x.displacesSource e.src = true
      · obtain ⟨f, hc, hd⟩ := displacesSource_iff.1 d
        exact .inl (h x f hx hc hd)
      · exact .inr (by simpa using d)
  have newest (hc : r.content = .faultEntry e) : newestOfKey rs r = true ↔
      ∀ (x : Record) (f : FaultEntry), j.reads x → x.content = .faultEntry f → f.src = e.src → x.seq ≤ r.seq := by
    simp only [newestOfKey, List.all_eq_true, reads, Bool.or_eq_true, decide_eq_true_eq, hc]
    refine ⟨fun h x f hx hf hs => ?_, fun h x hx => ?_⟩
    · exact (h x hx).resolve_left fun n => n (by rw [hf, Content.key, Content.key, hs])
    · by_cases k : x.content.key = .fault e.src
      · obtain ⟨f, hf, hs⟩ := Content.key_fault.1 k
        exact .inr (h x f hx hf hs)
      · exact .inl k
  constructor
  · rintro ⟨mem, hc, alive, new⟩
    simp only [live, hc, Bool.and_eq_true, decide_eq_true_eq] at alive
    obtain ⟨⟨above, undisplaced⟩, young⟩ := alive
    exact ⟨⟨(reads r).1 mem, hc⟩, (newest hc).1 new, marks.1 above, displaced.1 undisplaced, young⟩
  · rintro ⟨⟨read, hc⟩, new, above, undisplaced, young⟩
    refine ⟨(reads r).2 read, hc, ?_, (newest hc).2 new⟩
    simp only [live, hc, Bool.and_eq_true, decide_eq_true_eq]
    exact ⟨⟨marks.2 above, displaced.2 undisplaced⟩, young⟩

/-- One record in the hand-over of the fault entries. -/
def foundStep (cycle : Nat) (rs : List Record) (acc : List FaultEntry) (r : Record) : List FaultEntry :=
  match r.content with
  | .faultEntry e =>
    if live cycle rs r && newestOfKey rs r && acc.all (fun x => decide (x.src ≠ e.src)) then acc ++ [e] else acc
  | _ => acc

theorem faultsFound_eq (j : Journal) (cycle : Nat) :
    j.faultsFound cycle = j.records.foldl (foundStep cycle j.records) [] := rfl

/-- Everything one record does to the hand-over. -/
theorem foundStep_cases (cycle : Nat) (rs : List Record) (acc : List FaultEntry) (r : Record) :
    (∃ e, r.content = .faultEntry e ∧ live cycle rs r = true ∧ newestOfKey rs r = true ∧ (∀ x ∈ acc, x.src ≠ e.src) ∧
      foundStep cycle rs acc r = acc ++ [e]) ∨
    (foundStep cycle rs acc r = acc ∧ ∀ e, r.content = .faultEntry e → live cycle rs r = true →
      newestOfKey rs r = true → ∃ x ∈ acc, x.src = e.src) := by
  unfold foundStep
  split
  · rename_i e hc
    split
    · rename_i h
      simp only [Bool.and_eq_true, List.all_eq_true, decide_eq_true_eq] at h
      obtain ⟨⟨alive, new⟩, fresh⟩ := h
      exact .inl ⟨e, hc, alive, new, fresh, rfl⟩
    · rename_i h
      refine .inr ⟨rfl, fun f hf alive new => ?_⟩
      obtain rfl : e = f := by simpa [hc] using hf
      simpa [alive, new] using h
  · rename_i other
    exact .inr ⟨rfl, fun e he => absurd he (other e)⟩

/-- The entries handed over: each of a handed record, no code twice, and some entry of the code of every handed record. -/
theorem faultsFound_spec (j : Journal) (cycle : Nat) :
    (∀ e ∈ j.faultsFound cycle, ∃ r : Record, r.handed cycle j.records e) ∧
      ((j.faultsFound cycle).map (·.src)).Nodup ∧
      ∀ (r : Record) (e : FaultEntry), r.handed cycle j.records e → ∃ x ∈ j.faultsFound cycle, x.src = e.src := by
  rw [faultsFound_eq]
  have fold : ∀ (l : List Record) (acc : List FaultEntry), (∀ r ∈ l, r ∈ j.records) →
      (∀ e ∈ acc, ∃ r : Record, r.handed cycle j.records e) → (acc.map (·.src)).Nodup →
      let out := l.foldl (foundStep cycle j.records) acc
      (∀ e ∈ out, ∃ r : Record, r.handed cycle j.records e) ∧ (out.map (·.src)).Nodup ∧ (∀ e ∈ acc, e ∈ out) ∧
        ∀ r ∈ l, ∀ e, r.handed cycle j.records e → ∃ x ∈ out, x.src = e.src := by
    intro l
    induction l with
    | nil => exact fun acc _ from_ nodup => ⟨from_, nodup, fun _ h => h, nofun⟩
    | cons r l ih =>
      intro acc sub from_ nodup
      have later : ∀ x ∈ l, x ∈ j.records := fun x hx => sub x (List.mem_cons_of_mem _ hx)
      rcases foundStep_cases cycle j.records acc r with ⟨e, hc, alive, new, fresh, step⟩ | ⟨step, held⟩
      · have grown : (∀ x ∈ acc ++ [e], ∃ r : Record, r.handed cycle j.records x) ∧ ((acc ++ [e]).map (·.src)).Nodup := by
          refine ⟨fun x hx => ?_, ?_⟩
          · rcases List.mem_append.1 hx with hx | hx
            · exact from_ x hx
            · exact List.mem_singleton.1 hx ▸ ⟨r, sub r List.mem_cons_self, hc, alive, new⟩
          · rw [List.map_append, List.nodup_append]
            refine ⟨nodup, by simp, fun a ha b hb => ?_⟩
            obtain ⟨x, hx, rfl⟩ := List.mem_map.1 ha
            rw [List.map_singleton, List.mem_singleton] at hb
            exact hb ▸ fresh x hx
        obtain ⟨out, outNodup, kept, all⟩ := ih (acc ++ [e]) later grown.1 grown.2
        rw [List.foldl_cons, step]
        refine ⟨out, outNodup, fun x hx => kept x (List.mem_append_left _ hx), List.forall_mem_cons.2 ⟨?_, all⟩⟩
        rintro f ⟨-, hf, -⟩
        obtain rfl : e = f := by simpa [hc] using hf
        exact ⟨e, kept e (List.mem_append_right _ List.mem_cons_self), rfl⟩
      · obtain ⟨out, outNodup, kept, all⟩ := ih acc later from_ nodup
        rw [List.foldl_cons, step]
        refine ⟨out, outNodup, kept, List.forall_mem_cons.2 ⟨?_, all⟩⟩
        rintro f ⟨-, hf, alive, new⟩
        obtain ⟨x, hx, same⟩ := held f hf alive new
        exact ⟨x, kept x hx, same⟩
  obtain ⟨out, nodup, -, all⟩ := fold j.records [] (fun _ h => h) nofun List.nodup_nil
  exact ⟨out, nodup, fun r e h => all r h.1 e h⟩

/-! ## The order of victims (R157) -/

theorem weaker_iff {a b : FaultEntry} : a.weaker b = true ↔ a.goesBefore b := by
  simp [FaultEntry.weaker, FaultEntry.goesBefore]

theorem goesBefore_trans {a b c : FaultEntry} (h : a.goesBefore b) (k : b.goesBefore c) : a.goesBefore c := by
  simp only [FaultEntry.goesBefore] at *
  omega

/-- Two entries of different codes are in the order of victims one way or the other. -/
theorem goesBefore_total {a b : FaultEntry} (h : a.src ≠ b.src) (k : ¬ b.goesBefore a) : a.goesBefore b := by
  have code := mt (@faultCode_injective a.src b.src) h
  simp only [FaultEntry.goesBefore] at *
  omega

/-- One entry in the search for the weakest. -/
def weakestStep (acc : Option FaultEntry) (e : FaultEntry) : Option FaultEntry :=
  match acc with
  | some w => if e.weaker w then some e else some w
  | none => some e

theorem weakest_eq (es : List FaultEntry) : weakest es = es.foldl weakestStep none := rfl

theorem goesBefore_irrefl (a : FaultEntry) : ¬ a.goesBefore a := by simp [FaultEntry.goesBefore]

/-- The entry the search holds goes before none of those seen. -/
def Least (seen : List FaultEntry) (acc : Option FaultEntry) : Prop :=
  (seen ≠ [] → acc ≠ none) ∧ ∀ w, acc = some w → ∀ x ∈ seen, ¬ x.goesBefore w

theorem weakestStep_least {seen : List FaultEntry} {acc : Option FaultEntry} (h : Least seen acc) (e : FaultEntry) :
    Least (seen ++ [e]) (weakestStep acc e) := by
  obtain ⟨some, least⟩ := h
  cases acc with
  | none =>
    have empty : seen = [] := by
      by_contra h
      exact some h rfl
    refine ⟨fun _ => nofun, fun w hw x hx => ?_⟩
    obtain rfl := Option.some.inj hw
    rw [empty, List.nil_append, List.mem_singleton] at hx
    exact hx ▸ goesBefore_irrefl _
  | some w =>
    by_cases weaker : e.weaker w = true
    · have step : weakestStep (.some w) e = .some e := if_pos weaker
      rw [step]
      refine ⟨fun _ => nofun, fun v hv x hx hb => ?_⟩
      obtain rfl := Option.some.inj hv
      rcases List.mem_append.1 hx with hx | hx
      · exact least w rfl x hx (goesBefore_trans hb (weaker_iff.1 weaker))
      · exact goesBefore_irrefl _ (List.mem_singleton.1 hx ▸ hb)
    · have step : weakestStep (.some w) e = .some w := if_neg weaker
      rw [step]
      refine ⟨fun _ => nofun, fun v hv x hx hb => ?_⟩
      obtain rfl := Option.some.inj hv
      rcases List.mem_append.1 hx with hx | hx
      · exact least w rfl x hx hb
      · exact weaker (weaker_iff.2 (List.mem_singleton.1 hx ▸ hb))

/-- No entry goes before the weakest, and there is one where there is an entry. -/
theorem weakest_least (es : List FaultEntry) : Least es (weakest es) := by
  have fold : ∀ (l seen : List FaultEntry) (acc : Option FaultEntry), Least seen acc →
      Least (seen ++ l) (l.foldl weakestStep acc) := by
    intro l
    induction l with
    | nil => exact fun seen acc h => by simpa using h
    | cons e l ih => exact fun seen acc h => by simpa using ih _ _ (weakestStep_least h e)
  exact fold es [] none ⟨fun h => absurd rfl h, nofun⟩

/-! ## At most 32 entries (R164) -/

theorem trimIndex_sublist (fuel : Nat) (es : List FaultEntry) : (trimIndex fuel es).Sublist es := by
  induction fuel generalizing es with
  | zero => exact .refl _
  | succ fuel ih =>
    rw [trimIndex]
    split
    · exact .refl _
    · split
      · exact (ih _).trans List.filter_sublist
      · exact .refl _

/-- Leaving out the one entry of a code. -/
theorem length_filter_src {es : List FaultEntry} (nodup : (es.map (·.src)).Nodup) {w : FaultEntry} (hw : w ∈ es) :
    (es.filter fun e => decide (e.src ≠ w.src)).length + 1 = es.length := by
  induction es with
  | nil => simp at hw
  | cons e es ih =>
    rw [List.map_cons, List.nodup_cons] at nodup
    obtain ⟨fresh, nodup⟩ := nodup
    rcases List.mem_cons.1 hw with rfl | hw
    · have others : es.filter (fun e => decide (e.src ≠ w.src)) = es :=
        List.filter_eq_self.2 fun x hx => decide_eq_true fun same => fresh (same ▸ List.mem_map_of_mem hx)
      rw [List.filter_cons_of_neg (by simp), others, List.length_cons]
    · have other : e.src ≠ w.src := fun same => fresh (same ▸ List.mem_map_of_mem hw)
      rw [List.filter_cons_of_pos (by simpa using other), List.length_cons, List.length_cons, ih nodup hw]

/-- Everything that leaving out the weakest does: at most 32 remain, 32 where there were as many, and what is left out goes
before each that remains. -/
theorem trimIndex_spec (fuel : Nat) (es : List FaultEntry) (nodup : (es.map (·.src)).Nodup) (enough : es.length ≤ 32 + fuel) :
    (trimIndex fuel es).length ≤ 32 ∧ (32 ≤ es.length → 32 ≤ (trimIndex fuel es).length) ∧
      ∀ e ∈ es, e ∈ trimIndex fuel es ∨ (32 ≤ es.length ∧ ∀ u ∈ trimIndex fuel es, e.goesBefore u) := by
  induction fuel generalizing es with
  | zero => exact ⟨enough, id, fun e he => .inl he⟩
  | succ fuel ih =>
    rw [trimIndex]
    by_cases small : es.length ≤ 32
    · rw [if_pos small]
      exact ⟨small, id, fun e he => .inl he⟩
    rw [if_neg small]
    obtain ⟨nonempty, first⟩ := weakest_least es
    cases hw : weakest es with
    | none => exact absurd hw (nonempty (by rintro rfl; simp at small))
    | some w =>
      have mem := weakest_mem hw
      have shorter := length_filter_src nodup mem
      have sub : (es.filter fun e => decide (e.src ≠ w.src)).Sublist es := List.filter_sublist
      obtain ⟨few, many, out⟩ := ih _ (nodup.sublist (sub.map _)) (by omega)
      refine ⟨few, fun _ => many (by omega), fun e he => ?_⟩
      by_cases isW : e.src = w.src
      · have same : e = w := List.inj_on_of_nodup_map nodup he mem isW
        refine .inr ⟨by omega, fun u hu => ?_⟩
        obtain ⟨mine, apart⟩ := List.mem_filter.1 ((trimIndex_sublist _ _).subset hu)
        rw [same]
        exact goesBefore_total (Ne.symm (by simpa using apart)) (first w hw u mine)
      · refine (out e (List.mem_filter.2 ⟨he, by simpa using isW⟩)).imp_right fun ⟨_, before⟩ => ⟨by omega, before⟩

/-- The entries handed over take their places one by one. -/
theorem foldl_insertEntry (es acc : List FaultEntry) (sorted : acc.Pairwise fun a b => a.before b = true)
    (nodup : ((acc ++ es).map (·.src)).Nodup) :
    (es.foldl (fun acc e => insertEntry e acc) acc).Perm (acc ++ es) ∧
      (es.foldl (fun acc e => insertEntry e acc) acc).Pairwise fun a b => a.before b = true := by
  induction es generalizing acc with
  | nil => simpa using sorted
  | cons e es ih =>
    have perm : (insertEntry e acc ++ es).Perm (acc ++ e :: es) :=
      ((insertEntry_perm e acc).append_right es).trans List.perm_middle.symm
    have apart : ∀ x ∈ acc, x.src ≠ e.src := by
      rw [List.map_append, List.nodup_append] at nodup
      exact fun x hx => nodup.2.2 _ (List.mem_map_of_mem hx) _ (by simp)
    obtain ⟨all, inOrder⟩ := ih (insertEntry e acc) (insertEntry_sorted e sorted apart)
      ((perm.map _).nodup_iff.2 nodup)
    exact ⟨all.trans perm, inOrder⟩

/-- The index the FM takes from the entries handed over (R151, R164). -/
theorem takeEntries_spec (es : List FaultEntry) (s : State) (nodup : (es.map (·.src)).Nodup) :
    let index := (takeEntries es s).fm.index
    (takeEntries es s).fm = { s.fm with index } ∧ index.length ≤ 32 ∧ (index.map (·.src)).Nodup ∧
      index.Pairwise (fun a b => a.before b = true) ∧
      (∀ e ∈ index, ∃ f ∈ es, e = { f with dispPending := false }) ∧
      ∀ f ∈ es, let e : FaultEntry := { f with dispPending := false }
        e ∈ index ∨ (index.length = 32 ∧ ∀ u ∈ index, e.goesBefore u) := by
  intro index
  set bare := es.map fun e => { e with dispPending := false } with bare_eq
  set placed := bare.foldl (fun acc e => insertEntry e acc) [] with placed_eq
  have bareNodup : (bare.map (·.src)).Nodup := by
    rw [bare_eq, List.map_map]
    exact nodup
  obtain ⟨perm, sorted⟩ := foldl_insertEntry bare [] .nil bareNodup
  rw [List.nil_append, ← placed_eq] at perm
  rw [← placed_eq] at sorted
  have placedNodup : (placed.map (·.src)).Nodup := (perm.map _).nodup_iff.2 bareNodup
  have taken : index = trimIndex placed.length placed := rfl
  have sub := trimIndex_sublist placed.length placed
  obtain ⟨few, many, out⟩ := trimIndex_spec placed.length placed placedNodup (by omega)
  rw [← taken] at sub few many out
  refine ⟨rfl, few, placedNodup.sublist (sub.map _), sorted.sublist sub, fun e he => ?_, fun f hf => ?_⟩
  · obtain ⟨f, hf, rfl⟩ := List.mem_map.1 (perm.mem_iff.1 (sub.subset he))
    exact ⟨f, hf, rfl⟩
  · refine (out _ (perm.mem_iff.2 (List.mem_map_of_mem hf))).imp_right fun ⟨full, before⟩ => ⟨?_, before⟩
    exact Nat.le_antisymm few (many full)

/-! ## What the array is left with -/

theorem afterRebuild_queue (j : Journal) : j.afterRebuild.queue = j.queue := by
  have reclaim (k : Journal) : k.startReclaim.queue = k.queue := by
    unfold Journal.startReclaim
    split
    · rfl
    · split <;> rfl
  rw [Journal.afterRebuild, reclaim]
  split <;> rfl

/-- The choice of the next operation leaves an empty queue empty. -/
theorem choose_queue_nil {j : Journal} (cycle : Nat) (h : j.queue = []) : (j.choose cycle).queue = [] := by
  have served {k : Journal} (hk : k.queue = []) : k.serveQueue.queue = [] := by
    rcases k.serveQueue_cases with ⟨_, _, e, -⟩ | ⟨_, _, e, -⟩ | ⟨-, e⟩
    · simp [hk] at e
    · simp [hk] at e
    · rcases k.eraseOrFree_cases with ⟨_, _, -, e'⟩ | ⟨-, e'⟩ <;> rw [e, e'] <;> exact hk
  rcases j.choose_cases cycle with ⟨-, e⟩ | ⟨-, -, ⟨-, e⟩ | ⟨-, _, _, -, ⟨_, _, -, e⟩ | ⟨-, e⟩⟩ | ⟨-, -, e⟩⟩
  · rw [e]; exact h
  · rw [e]; exact h
  · rw [e]
    split <;> exact h
  · rw [e]; exact served h
  · rw [e]; exact served h

/-! ## REBUILD_COMPLETE -/

/-- What the rebuild hands over, block by block. -/
theorem rebuilt_eq (s : State) :
    let j := s.jc.readBack
    rebuilt s =
      { s with
        li := { s.li with vehicleId := j.identity }.place .stateChanged 0 (some 1)
        sc := { s.sc with cycle := j.cycleFound.1, opSeconds := j.cycleFound.2, opState := .config }
        dm := { s.dm with stats := j.statsFound }
        fm := (takeEntries (j.faultsFound j.cycleFound.1) s).fm
        jc := j.afterRebuild.choose j.cycleFound.1 } := by
  dsimp only [rebuilt]
  generalize s.jc.readBack = j
  rfl

theorem exec_rebuildComplete {s : State} (starting : s.sc.opState = .starting) (free : s.jc.finishing = none)
    (due : s.jc.rebuildMs = 0) : exec .rebuildComplete s = .next (rebuilt s) :=
  nextIf_pos (by simp [State.rebuildDue, starting, free, due]) _ _

/-- The values of the newest CYCLE record. -/
theorem cycleFound_spec {j : Journal} {rs : List Record} (records : j.records = rs) :
    (∀ (r : Record) (n sec : Nat), r ∈ rs → r.content = .cycle n sec →
      (∀ x ∈ rs, (∃ a b, x.content = .cycle a b) → x = r ∨ x.seq < r.seq) → j.cycleFound = (n, sec)) ∧
    ((∀ r ∈ rs, ∀ n sec, r.content ≠ .cycle n sec) → j.cycleFound = (0, 0)) := by
  rw [Journal.cycleFound, records]
  refine ⟨fun r n sec mem hc newest => ?_, fun none => ?_⟩
  · rw [newestContent_some mem (a := (n, sec)) (by rw [hc]) fun x hx accepted => newest x hx ?_]
    · rfl
    · cases hx : x.content <;> simp [hx] at accepted ⊢
  · rw [newestContent_none fun r hr => ?_]
    · rfl
    · have := none r hr
      cases hc : r.content <;> simp_all

/-- The statistics of the newest DOOR_STATS record. -/
theorem statsFound_spec {j : Journal} {rs : List Record} (records : j.records = rs) :
    (∀ (r : Record) (v : Vector DoorStats 8), r ∈ rs → r.content = .doorStats v →
      (∀ x ∈ rs, (∃ a, x.content = .doorStats a) → x = r ∨ x.seq < r.seq) → j.statsFound = v) ∧
    ((∀ r ∈ rs, ∀ v, r.content ≠ .doorStats v) → j.statsFound = Vector.replicate 8 .zero) := by
  rw [Journal.statsFound, records]
  refine ⟨fun r v mem hc newest => ?_, fun none => ?_⟩
  · rw [newestContent_some mem (a := v) (by rw [hc]) fun x hx accepted => newest x hx ?_]
    · rfl
    · cases hx : x.content <;> simp [hx] at accepted ⊢
  · rw [newestContent_none fun r hr => ?_]
    · rfl
    · have := none r hr
      cases hc : r.content <;> simp_all

/-- Settles O47: `rebuilt_eq`, with the newest CYCLE and DOOR_STATS records and the entries of `takeEntries_spec`. -/
theorem rebuildCompleteHandsTheValuesOver : Obligations.RebuildCompleteHandsTheValuesOver := by
  intro s starting free
  refine ⟨fun due blank => ?_, fun notDue => nextIf_neg (by simp [State.rebuildDue, Nat.ne_of_gt notDue]) _ _⟩
  have reads (r : Record) : r ∈ s.jc.readBack.records ↔ s.jc.reads r := mem_readBack blank
  obtain ⟨cycleNewest, cycleNone⟩ := cycleFound_spec (j := s.jc.readBack) rfl
  obtain ⟨statsNewest, statsNone⟩ := statsFound_spec (j := s.jc.readBack) rfl
  obtain ⟨handed, nodup, complete⟩ := faultsFound_spec s.jc.readBack s.jc.readBack.cycleFound.1
  obtain ⟨fm, few, indexNodup, sorted, handedOver, all⟩ :=
    takeEntries_spec (s.jc.readBack.faultsFound s.jc.readBack.cycleFound.1) s nodup
  have queue : (s.jc.readBack.afterRebuild.choose s.jc.readBack.cycleFound.1).queue = [] :=
    choose_queue_nil _ ((afterRebuild_queue _).trans (readBack_queue _))
  have identity := readBack_identity s.jc
  refine ⟨rebuilt s, exec_rebuildComplete starting free due, ?_⟩
  rw [rebuilt_eq]
  generalize s.jc.readBack = j at *
  dsimp only at *
  refine ⟨rfl, fun r n sec newest hc => ?_, fun none => ?_, fun r v newest hc => ?_, fun none => ?_, identity, few, indexNodup,
    sorted.imp fun h => by simpa [FaultEntry.before] using h, fun e he => ?_, fun r f live alone => ?_, rfl, queue, rfl, rfl,
    fm, ?_⟩
  · obtain ⟨read, -, newer⟩ := newest
    have found := cycleNewest r n sec ((reads r).2 read) hc fun x hx kind => newer x ((reads x).1 hx) kind
    rw [found]
    exact ⟨rfl, rfl⟩
  · rw [cycleNone fun r hr n sec => none r n sec ((reads r).1 hr)]
    exact ⟨rfl, rfl⟩
  · obtain ⟨read, -, newer⟩ := newest
    exact statsNewest r v ((reads r).2 read) hc fun x hx kind => newer x ((reads x).1 hx) kind
  · exact statsNone fun r hr v => none r v ((reads r).1 hr)
  · obtain ⟨f, hf, rfl⟩ := handedOver e he
    obtain ⟨r, hr⟩ := handed f hf
    exact ⟨r, f, (handed_iff reads).1 hr, rfl⟩
  · have mine := (handed_iff reads).2 live
    obtain ⟨x, hx, sameSrc⟩ := complete r f mine
    obtain ⟨q, hq⟩ := handed x hx
    have other := (handed_iff reads).1 hq
    have sameSeq : q.seq = r.seq := Nat.le_antisymm (live.newest q x other.holds.1 other.holds.2 sameSrc)
      (other.newest r f live.holds.1 live.holds.2 sameSrc.symm)
    have sameRecord : q = r := alone q x other.holds.1 other.holds.2 sameSrc sameSeq
    have sameEntry : x = f := by
      have := other.holds.2.symm.trans (sameRecord ▸ live.holds.2)
      simpa using this
    exact all f (sameEntry ▸ hx)
  · refine ⟨{ seq := s.li.nextSeq, time := s.li.tripClock, event := .stateChanged, item := 0, value := some 1 }, ?_, rfl, rfl,
      rfl⟩
    rw [Link.place_reports]
    exact List.mem_append_right _ List.mem_cons_self

end Sys2Proof.Machine
end

section
/-! PROOFS. The blocks at RUN entry, before its reports and the warnings' evaluation (R20, R42, R70, R81, R110, R124, R142,
R159). -/

namespace Sys2Proof.Machine

set_option Elab.async false

/-! ## The Fault Memory (R159) -/

/-- The source is one of the supply's and the supply is in its state. -/
def State.supplySource (s : State) (src : FaultSource) : Prop :=
  (src = .system 1 ∧ s.ci.supply = .low) ∨ (src = .system 2 ∧ s.ci.supply = .high)

theorem setPresence_same {src : FaultSource} {p : Bool} {s : State} (h : s.fm.present src = p) :
    setPresence src p s = s := if_pos h

/-- A source that becomes present with its tracker ABSENT starts it (R149). -/
theorem setPresence_starts {src : FaultSource} {s : State} (h : s.fm.present src = false)
    (rest : s.fm.tracker src = .rest) :
    setPresence src true s = startTracker src (s.modFm fun f => f.withPresence src true) := by
  have absent : (s.fm.tracker src).state = .absent := by rw [rest]; rfl
  exact (if_neg (by simp [h])).trans ((if_pos rfl).trans (if_pos absent))

/-- A timed source that becomes present is PENDING (R149). -/
theorem setPresence_timed {src : FaultSource} {ms : Nat} {s : State} (h : s.fm.present src = false)
    (rest : s.fm.tracker src = .rest) (timed : confirmTime src = some ms) :
    setPresence src true s = setTracker src { state := .pending, timer := some ms }
      (s.modFm fun f => f.withPresence src true) := by
  rw [setPresence_starts h rest, startTracker, timed]

/-- All trackers and presences at rest. -/
def restFaults (s : State) : State :=
  s.modFm fun f => { f with presence := Vector.replicate 147 false, trackers := Vector.replicate 147 .rest }

theorem restFaults_rest (s : State) (src : FaultSource) :
    (restFaults s).fm.present src = false ∧ (restFaults s).fm.tracker src = .rest :=
  ⟨Vector.getElem_replicate (sourceIndex src).isLt, Vector.getElem_replicate (sourceIndex src).isLt⟩

/-- The presence of one timed source with everything else at rest. -/
theorem oneTimed_get (s : State) {src : FaultSource} (k : Tracker) (x : FaultSource) :
    let t := setTracker src k ((restFaults s).modFm fun f => f.withPresence src true)
    (t.fm.present x = true ↔ x = src) ∧ t.fm.tracker x = if x = src then k else .rest := by
  obtain ⟨absent, rest⟩ := restFaults_rest s x
  intro t
  constructor
  · simp only [t, setTracker_present, State.modFm_fm, withPresence_present, absent, eq_comm (a := src)]
    simp
  · simp only [t, setTracker_tracker, State.modFm_fm, withPresence_tracker, rest, eq_comm (a := src)]

theorem faultsRunEntry_eq (s : State) : faultsRunEntry s =
    setPresence (.system 2) (decide (s.ci.supply = .high))
      (setPresence (.system 1) (decide (s.ci.supply = .low)) (restFaults s)) := rfl

/-- The FM's view at RUN entry: presences and trackers at rest but for the supply's. -/
theorem faultsRunEntry_fm (s : State) : Only [.fm] s (faultsRunEntry s) ∧
    (faultsRunEntry s).fm =
      { s.fm with presence := (faultsRunEntry s).fm.presence, trackers := (faultsRunEntry s).fm.trackers } ∧
    ∀ src, ((faultsRunEntry s).fm.present src = true ↔ s.supplySource src) ∧
      (s.supplySource src → (faultsRunEntry s).fm.tracker src = { state := .pending, timer := some 5000 }) ∧
      (¬ s.supplySource src → (faultsRunEntry s).fm.tracker src = .rest) := by
  have rests : Only [.fm] s (restFaults s) := modFm_only s _
  have absent (src : FaultSource) := (restFaults_rest s src).1
  have rest (src : FaultSource) := (restFaults_rest s src).2
  rw [faultsRunEntry_eq]
  cases h : s.ci.supply with
  | normal =>
    rw [decide_eq_false nofun, decide_eq_false nofun, setPresence_same (absent _), setPresence_same (absent _)]
    refine ⟨rests, rfl, fun src => ⟨?_, ?_, fun _ => rest src⟩⟩
    · simp [absent, State.supplySource, h]
    · simp [State.supplySource, h]
  | low =>
    rw [decide_eq_false nofun, decide_eq_true rfl, setPresence_timed (absent _) (rest _) rfl,
      setPresence_same (by
        rw [← Bool.not_eq_true]
        exact fun on => absurd ((oneTimed_get s _ _).1.1 on) (by decide))]
    refine ⟨rests.trans ((modFm_only _ _).trans (setTracker_only _ _ _)), rfl, fun src => ?_⟩
    obtain ⟨present, tracked⟩ := oneTimed_get s (src := .system 1) { state := .pending, timer := some 5000 } src
    have same : s.supplySource src ↔ src = .system 1 := by simp [State.supplySource, h]
    rw [same]
    exact ⟨present, fun e => tracked.trans (if_pos e), fun e => tracked.trans (if_neg e)⟩
  | high =>
    rw [decide_eq_true rfl, decide_eq_false nofun, setPresence_same (absent _), setPresence_timed (absent _) (rest _) rfl]
    refine ⟨rests.trans ((modFm_only _ _).trans (setTracker_only _ _ _)), rfl, fun src => ?_⟩
    obtain ⟨present, tracked⟩ := oneTimed_get s (src := .system 2) { state := .pending, timer := some 5000 } src
    have same : s.supplySource src ↔ src = .system 2 := by simp [State.supplySource, h]
    rw [same]
    exact ⟨present, fun e => tracked.trans (if_pos e), fun e => tracked.trans (if_neg e)⟩

/-! ## Channels (R70) -/

theorem wiredRunEntry_cfg (w : Wired) : w.runEntry.cfg = w.cfg := by
  unfold Wired.runEntry
  dsimp only
  split <;> rfl

theorem wiredRunEntry_kept (w : Wired) : w.runEntry.value = w.value ∧ w.runEntry.reading = w.reading ∧
    w.runEntry.limited = false ∧ w.runEntry.switched = false := by
  unfold Wired.runEntry
  dsimp only
  split <;> exact ⟨rfl, rfl, rfl, rfl⟩

theorem wiredRunEntry_on {w : Wired} (on : w.cfg.kind ≠ .off) : w.runEntry.status = .init ∧ w.runEntry.candidate = none ∧
    w.runEntry.confirmed = none ∧ w.runEntry.wiring = .none := by
  unfold Wired.runEntry
  dsimp only
  rw [if_neg on]
  exact ⟨rfl, rfl, rfl, rfl⟩

theorem netRunEntry_kept (n : Net) : n.runEntry.cfg = n.cfg ∧ n.runEntry.value = n.value ∧ n.runEntry.limited = false := by
  unfold Net.runEntry
  dsimp only
  split <;> exact ⟨rfl, rfl, rfl⟩

theorem netRunEntry_on {n : Net} (on : n.cfg.network = true) : n.runEntry.status = .init ∧ n.runEntry.freshT = none ∧
    n.runEntry.lostT = none ∧ n.runEntry.initT = some (10 * n.cfg.fresh + 100 * n.cfg.lost) := by
  unfold Net.runEntry
  dsimp only
  rw [if_pos on]
  refine ⟨rfl, rfl, rfl, ?_⟩
  show some (n.cfg.fresh * 10 + n.cfg.lost * 100) = _
  rw [Nat.mul_comm, Nat.mul_comm n.cfg.lost]

/-! ## Gauges (R81) -/

/-- A gauge at RUN entry, its pointer with it: HOLD where the supply is LOW, else HOMING. -/
def Gauge.homes (low : Bool) (x : Gauge) : Gauge :=
  match x.record with
  | some r =>
    if low then { x with resume := some .homing, pointer := .hold }
    else { x.homingStart r with updateMs := 0, pointer := .homing }
  | none => x

theorem gaugeRunEntry_ge (g : Fin 8) (s : State) :
    (gaugeRunEntry g s).ge = vmod s.ge g (Gauge.homes (decide (s.ci.supply = .low))) := by
  unfold gaugeRunEntry
  cases h : s.ge[g].record with
  | none => exact (vmod_eq_self (by simp only [Gauge.homes, h])).symm
  | some r =>
    dsimp only
    split
    · rename_i low
      exact (vmod_vmod s.ge g (fun x => { x with resume := some .homing }) fun x => { x with pointer := .hold }).trans
        (vmod_congr (by simp only [Gauge.homes, h, low, decide_true, if_true]))
    · rename_i notLow
      exact (vmod_vmod s.ge g (fun x => { x.homingStart r with updateMs := 0 }) fun x =>
        { x with pointer := .homing }).trans
        (vmod_congr (by simp only [Gauge.homes, h, notLow, decide_false, Bool.false_eq_true, if_false]))

theorem gaugesRunEntry_ge (s : State) :
    (forEach gaugeRunEntry s).ge = vmap (Gauge.homes (decide (s.ci.supply = .low))) s.ge :=
  forEach_gauges s _ fun g t same => by
    rw [← same]
    exact ⟨gaugeRunEntry_ge g t, (gaugeRunEntry_only t g).ci⟩

/-- Without a configured gauge nothing homes. -/
theorem homes_none {ge : Vector Gauge 8} (h : ((List.finRange 8).any fun g => ge[g].record.isSome) = false) (low : Bool) :
    vmap (Gauge.homes low) ge = ge := by
  refine table_ext fun g => ?_
  have none : ge[g].record = none := by
    rw [List.any_eq_false] at h
    simpa using h g (List.mem_finRange g)
  rw [vmap_get, Gauge.homes, none]

/-- A configured gauge after RUN entry. -/
theorem homes_runEntry {x : Gauge} {r : GaugeRec} (h : x.record = some r) (low : Bool) :
    let y := x.runEntry.homes low
    y.record = some r ∧ y.curve = x.curve ∧ y.restarts = 0 ∧ y.limited = false ∧ y.display = none ∧ y.range = .none ∧
      y.target = r.rest ∧ (if low then y.pointer = .hold ∧ y.resume = some .homing
        else y.pointer = .homing ∧ y.pos = r.span ∧ y.homingPhase = .countdown ∧ y.stopPulses = r.span / 8 ∧
          y.updateMs = 0) := by
  have entered : x.runEntry =
      { x with restarts := 0, homed := false, limited := false, display := none, range := .none, target := r.rest,
               resume := none, testPos := none, testDue := false } := by simp only [Gauge.runEntry, h]
  rw [entered]
  cases low <;> simp [Gauge.homes, h, Gauge.homingStart]

theorem homes_unconfigured {x : Gauge} (h : x.record = none) (low : Bool) : x.runEntry.homes low = x := by
  have same : x.runEntry = x := by simp only [Gauge.runEntry, h]
  rw [same, Gauge.homes, h]

/-! ## Doors (R142) -/

/-- A leaf at RUN entry. -/
theorem resetLeaves_leaf (s : State) (l : Fin 8) : (resetLeaves s).dm.leaves[l] =
    if s.dm.leaves[l].cfg.isSome then { Leaf.fresh s.dm.leaves[l].cfg with counted := s.dm.leaves[l].counted }
    else s.dm.leaves[l] := vmap_get _ _ l

theorem resetLeaves_cfg (s : State) (l : Fin 8) : (resetLeaves s).dm.leaves[l].cfg = s.dm.leaves[l].cfg := by
  rw [resetLeaves_leaf]
  split <;> rfl

theorem resetLeaves_state {s : State} {l : Fin 8} (h : s.dm.leaves[l].cfg.isSome) :
    (resetLeaves s).dm.leaves[l].state = .unknown := by
  rw [resetLeaves_leaf, if_pos h]
  rfl

theorem resetLeaves_doorway (s : State) (w : Fin 4) :
    (resetLeaves s).dm.doorway[w] = (resetLeaves s).dm.worst w := tab_get _ w

/-- A doorway whose leaves are all UNKNOWN is UNKNOWN (R134). -/
theorem worst_unknown {d : DoorMon} (unknown : ∀ l : Fin 8, d.leaves[l].cfg.isSome → d.leaves[l].state = .unknown)
    {l : Fin 8} {c : LeafCfg} (h : d.leaves[l].cfg = some c) : d.worst c.doorway = some .unknown := by
  have fold : ∀ (ls : List (Fin 8)) (acc : Option LeafState), acc = none ∨ acc = some .unknown →
      (acc = some .unknown ∨ l ∈ ls) → ls.foldl (fun acc i =>
        match d.leaves[i].cfg with
        | some x =>
          if x.doorway = c.doorway then
            some (match acc with
              | some st => st.worse d.leaves[i].state
              | none => d.leaves[i].state)
          else acc
        | none => acc) acc = some .unknown := by
    intro ls
    induction ls with
    | nil => intro acc _ h; simpa using h
    | cons i ls ih =>
      intro acc hacc found
      rw [List.foldl_cons]
      cases hi : d.leaves[i].cfg with
      | none =>
        refine ih acc hacc (found.imp_right fun mem => (List.mem_cons.1 mem).resolve_left ?_)
        rintro rfl
        exact absurd (hi.symm.trans h) nofun
      | some x =>
        have state := unknown i (by rw [hi]; rfl)
        dsimp only
        split
        · refine ih _ (.inr ?_) (.inl ?_) <;> rcases hacc with rfl | rfl <;> rw [state] <;> rfl
        · rename_i other
          refine ih acc hacc (found.imp_right fun mem => (List.mem_cons.1 mem).resolve_left ?_)
          rintro rfl
          exact other (by rw [Option.some.inj (hi.symm.trans h)])
  exact fold _ none (.inl rfl) (.inr (List.mem_finRange l))

theorem resetLeaves_unknown (s : State) {l : Fin 8} {c : LeafCfg} (h : s.dm.leaves[l].cfg = some c) :
    (resetLeaves s).dm.doorway[c.doorway] = some .unknown := by
  rw [resetLeaves_doorway]
  exact worst_unknown (fun i hi => resetLeaves_state (by rwa [resetLeaves_cfg] at hi)) ((resetLeaves_cfg s l).trans h)

/-- Where every configured leaf is UNKNOWN, all are secure only where none is configured. -/
theorem resetLeaves_allSecure (s : State) :
    (resetLeaves s).dm.allSecure = true ↔ ∀ l : Fin 8, s.dm.leaves[l].cfg = none := by
  rw [DoorMon.allSecure, List.all_eq_true]
  simp only [List.mem_finRange, true_imp_iff]
  refine forall_congr' fun l => ?_
  rw [resetLeaves_cfg]
  cases h : s.dm.leaves[l].cfg with
  | none => simp
  | some c =>
    have state := resetLeaves_state (s := s) (l := l) (by rw [h]; rfl)
    have insecure : (resetLeaves s).dm.leaves[l].secure = false := by
      simp only [Leaf.secure, secureState, state]
      rfl
    rw [insecure]
    simp

end Sys2Proof.Machine
end
section
/-! PROOFS. Conversion and the alert outputs at RUN entry (R42, R121, R124), and the blocks together. -/

namespace Sys2Proof.Machine

set_option Elab.async false

/-! ## Conversion (R42) -/

/-- The CU at RUN entry before a path that is READY starts its first conversion. -/
def State.convEntered (s : State) : State :=
  (powerComparators (fun ch => s.ci.wired[ch].cfg.watched) (s.modCu (·.abort))).modCu fun u =>
    { u with
      queue := ((List.finRange 24).filter fun ch => decide (u.latch[ch] = .set)).map fun ch => { ch, hostMark := false }
      path := if u.path = .unpowered then .settling else u.path
      settleMs := if u.path = .unpowered then 0 else u.settleMs }

/-- Conversion as RUN entry leaves it. -/
structure State.ConversionBegins (s t : State) : Prop where
  begun    : t.cu.runCount = 0 ∧ t.cu.pos = .reference
  path     : t.cu.path = if s.cu.path = .unpowered then .settling else s.cu.path
  first    : s.cu.path = .ready → ∃ c, t.cu.inFlight = some c ∧ c.target = .reference ∧ c.origin = .pass
  waits    : s.cu.path ≠ .ready → t.cu.inFlight = none
  powered  : ∀ ch : Fin 24, t.cu.comparator[ch] ≠ .unpowered ↔ s.ci.wired[ch].cfg.watched = true
  latch    : ∀ ch : Fin 24, t.cu.latch[ch] = if s.ci.wired[ch].cfg.watched then s.cu.latch[ch] else .armed
  queue    : t.cu.queue = ((List.finRange 24).filter fun ch => decide (t.cu.latch[ch] = .set)).map
    fun ch => { ch, hostMark := false }
  kept     : t.cu.scan = s.cu.scan ∧ t.cu.lastResult = s.cu.lastResult

theorem convEntered_path (s : State) :
    s.convEntered.cu.path = if s.cu.path = .unpowered then .settling else s.cu.path := rfl

theorem convEntered_ready (s : State) : s.convEntered.cu.path = .ready ↔ s.cu.path = .ready := by
  rw [convEntered_path]
  split
  · rename_i h
    simp [h]
  · exact Iff.rfl

theorem convRunEntry_eq (s : State) : convRunEntry s =
    if s.convEntered.cu.path = .ready then startElement 0 s.convEntered else s.convEntered := rfl

theorem convRunEntry_begins (s : State) : s.ConversionBegins (convRunEntry s) := by
  have power (ch : Fin 24) := powerComparators_get (fun ch => s.ci.wired[ch].cfg.watched) (s.modCu (·.abort)) ch
  rw [convRunEntry_eq]
  split
  · rename_i ready
    exact ⟨⟨rfl, rfl⟩, rfl, fun _ => ⟨_, rfl, rfl, rfl⟩, fun n => absurd ((convEntered_ready s).1 ready) n,
      fun ch => (power ch).1, fun ch => (power ch).2, rfl, ⟨rfl, rfl⟩⟩
  · rename_i other
    exact ⟨⟨rfl, rfl⟩, rfl, fun h => absurd ((convEntered_ready s).2 h) other, fun _ => rfl,
      fun ch => (power ch).1, fun ch => (power ch).2, rfl, ⟨rfl, rfl⟩⟩

theorem State.ConversionBegins.congr {s t t' : State} (h : s.ConversionBegins t) (e : t'.cu = t.cu) : s.ConversionBegins t' := by
  obtain ⟨begun, path, first, waits, powered, latch, queue, kept⟩ := h
  rw [← e] at begun path first waits queue kept
  exact ⟨begun, path, first, waits, by rw [e]; exact powered, by rw [e]; exact latch, queue, kept⟩

/-! ## Alert outputs (R113, R121, R124) -/

/-- The outputs at RUN entry, before any warning: the bulb check on every lamp, the generator running, no test and no chime. -/
structure Alert.Begun (a : Alert) : Prop where
  bulb      : a.bulb = some 3000
  running   : a.genRunning = true
  phase     : a.phase = 0 ∧ a.genQ = 0 ∧ a.burst = 0
  lit       : ∀ l : Fin 24, a.drive[l] = .lit
  overrides : ∀ l : Fin 24, a.overrides[l] = none
  noTest    : a.chimeTest = none
  finished  : ∀ w : Fin 64, a.finished[w] = none
  floor     : a.floorCopy = .notice

/-- While the bulb check runs a lamp without override is lit (R121). -/
theorem lampDrive_bulb {s : State} (bulb : s.ao.bulb = some 3000) (l : Fin 24) (free : s.ao.overrides[l] = none) :
    s.lampDrive l = .lit := by
  rw [lampDrive_free free, bulb]
  rfl

theorem alertsRunEntry_begun (s : State) : (alertsRunEntry s).ao.Begun where
  bulb := rfl
  running := rfl
  phase := ⟨rfl, rfl, rfl⟩
  lit l := by
    rw [alertsRunEntry, refreshLamps_ao, tab_get]
    exact lampDrive_bulb rfl l (Vector.getElem_replicate l.isLt)
  overrides l := Vector.getElem_replicate l.isLt
  noTest := rfl
  finished w := Vector.getElem_replicate w.isLt
  floor := rfl

/-- The chime at RUN entry, and what stays of the outputs. -/
theorem alertsRunEntry_quiet (s : State) :
    ((alertsRunEntry s).ao.source = .none ∧ (alertsRunEntry s).ao.claimant = .none ∧ (alertsRunEntry s).ao.listCopy = []) ∧
      (alertsRunEntry s).ao.used = s.ao.used ∧ (alertsRunEntry s).ao.patterns = s.ao.patterns :=
  ⟨⟨rfl, rfl, rfl⟩, rfl, rfl⟩

/-! ## The blocks together -/

/-- CI, GE and DM at RUN entry, the state already RUN. -/
def State.inputsEntered (s : State) : State :=
  resetLeaves (((s.modSc (·.enterRun)).modCi (·.runEntry)).modGe (vmap Gauge.runEntry))

/-- The blocks at RUN entry. -/
def State.runBlocks (s : State) : State :=
  convRunEntry (alertsRunEntry (resetWarnings (faultsRunEntry s.inputsEntered)))

/-- What the blocks hold at RUN entry. -/
structure State.RunBlocks (s b : State) : Prop where
  sc      : b.sc = s.sc.enterRun
  ci      : b.ci = s.ci.runEntry
  ge      : b.ge = vmap Gauge.runEntry s.ge
  dm      : b.dm = (resetLeaves s).dm
  conv    : s.ConversionBegins b
  wm      : b.wm = { s.wm with inst := Vector.replicate 64 .rest, list := [], floor := .notice,
                               view := some (.runEntry s.ci.supply) }
  alerts  : b.ao.Begun
  quiet   : b.ao.source = .none ∧ b.ao.claimant = .none ∧ b.ao.listCopy = []
  lamps   : b.ao.used = s.ao.used ∧ b.ao.patterns = s.ao.patterns
  fm      : b.fm = { s.fm with presence := b.fm.presence, trackers := b.fm.trackers }
  sources : ∀ src, (b.fm.present src = true ↔ s.supplySource src) ∧
    (s.supplySource src → b.fm.tracker src = { state := .pending, timer := some 5000 }) ∧
    (¬ s.supplySource src → b.fm.tracker src = .rest)
  kept    : b.jc = s.jc ∧ b.pending = s.pending

theorem runBlocks_only (s : State) : Only [.cu, .ao, .wm, .fm, .free] s.inputsEntered s.runBlocks :=
  ((((faultsRunEntry_fm s.inputsEntered).1.mono).andThen (resetWarnings_only _)).andThen
    (alertsRunEntry_only _)).andThen (convRunEntry_only _)

/-- The CU begins alike from states with the same conversion and channel configurations. -/
theorem State.ConversionBegins.ofSame {s s' t : State} (h : s'.ConversionBegins t) (cu : s'.cu = s.cu)
    (cfg : ∀ ch : Fin 24, s'.ci.wired[ch].cfg = s.ci.wired[ch].cfg) : s.ConversionBegins t := by
  obtain ⟨begun, path, first, waits, powered, latch, queue, kept⟩ := h
  simp only [cfg, cu] at path first waits powered latch kept
  exact ⟨begun, path, first, waits, powered, latch, queue, kept⟩

theorem runBlocks_holds (s : State) : s.RunBlocks s.runBlocks := by
  have only := runBlocks_only s
  obtain ⟨faults, fm, sources⟩ := faultsRunEntry_fm s.inputsEntered
  have warned : Only [.wm] _ (resetWarnings (faultsRunEntry s.inputsEntered)) := resetWarnings_only _
  have alerted : Only [.ao] _ (alertsRunEntry (resetWarnings (faultsRunEntry s.inputsEntered))) := alertsRunEntry_only _
  have converts : Only [.cu, .free] _ s.runBlocks := convRunEntry_only _
  have supply : (faultsRunEntry s.inputsEntered).ci.supply = s.ci.supply := by
    rw [faults.ci]
    rfl
  have wm : (resetWarnings (faultsRunEntry s.inputsEntered)).wm =
      { s.wm with inst := Vector.replicate 64 .rest, list := [], floor := .notice,
                  view := some (.runEntry s.ci.supply) } := by
    rw [← supply, resetWarnings, State.modWm_wm, faults.wm]
    rfl
  obtain ⟨quiet, used, patterns⟩ := alertsRunEntry_quiet (resetWarnings (faultsRunEntry s.inputsEntered))
  have begun := alertsRunEntry_begun (resetWarnings (faultsRunEntry s.inputsEntered))
  have ao : s.runBlocks.ao = (alertsRunEntry (resetWarnings (faultsRunEntry s.inputsEntered))).ao := converts.ao
  have lamps : (resetWarnings (faultsRunEntry s.inputsEntered)).ao = s.ao := by
    rw [warned.ao, faults.ao]
    rfl
  have sameFm : s.runBlocks.fm = (faultsRunEntry s.inputsEntered).fm := by
    rw [converts.fm, alerted.fm, warned.fm]
  have conv : s.ConversionBegins s.runBlocks := by
    refine (convRunEntry_begins _).ofSame ?_ fun ch => ?_
    · rw [alerted.cu, warned.cu, faults.cu]
      rfl
    · have ci : (alertsRunEntry (resetWarnings (faultsRunEntry s.inputsEntered))).ci = s.ci.runEntry := by
        rw [alerted.ci, warned.ci, faults.ci]
        rfl
      rw [ci]
      exact (congrArg Wired.cfg (vmap_get Wired.runEntry s.ci.wired ch)).trans (wiredRunEntry_cfg _)
  refine ⟨only.sc, only.ci, only.ge, only.dm, conv, ?_, ?_, ?_, ?_, ?_, ?_, only.jc, only.pending⟩
  · rw [converts.wm, alerted.wm, wm]
  · rw [ao]
    exact begun
  · rw [ao]
    exact quiet
  · rw [ao, ← lamps]
    exact ⟨used, patterns⟩
  · rw [sameFm]
    exact fm
  · rw [sameFm]
    exact sources

end Sys2Proof.Machine
end
section
/-! PROOFS. What a confirmation leaves in the fault index, and the index aged (R151 to R153, R157 to R159). -/

namespace Sys2Proof.Machine

set_option Elab.async false

/-- The entry is young in a cycle (R159). -/
def FaultEntry.young (cycle : Nat) (e : FaultEntry) : Prop := cycle - e.lastCycle < 40

/-- What the confirmation of a source leaves in the FM: index and full flag alone move; no entry of another source is new; and
where there is room none is lost, and the source has an entry as of now. -/
structure Confirms (src : FaultSource) (s t : State) : Prop where
  frame  : t.fm = { s.fm with index := t.fm.index, full := t.fm.full }
  young  : (∀ e ∈ s.fm.index, e.young s.sc.cycle) → ∀ e ∈ t.fm.index, e.young s.sc.cycle
  others : ∀ e ∈ t.fm.index, e.src ≠ src → e ∈ s.fm.index
  room   : s.fm.index.length < 32 → t.fm.full = s.fm.full ∧ t.fm.index.length ≤ s.fm.index.length + 1 ∧
    (∀ e ∈ s.fm.index, e.src ≠ src → e ∈ t.fm.index) ∧ ∃ e ∈ t.fm.index, e.src = src ∧ s.sc.opSeconds ≤ e.lastSeen

theorem createEntry_fm (src : FaultSource) (displaces : Option FaultSource) (s : State) :
    (createEntry src displaces s).fm = { s.fm with index := insertEntry (s.newEntry src displaces) s.fm.index } := rfl

theorem displaceEntry_fm (victim src : FaultSource) (s : State) : (displaceEntry victim src s).fm =
    { s.fm with index := s.fm.index.filter fun e => decide (e.src ≠ victim) } := rfl

/-- A new entry is young. -/
theorem newEntry_young (s : State) (src : FaultSource) (displaces : Option FaultSource) :
    (s.newEntry src displaces).young s.sc.cycle := by
  show s.sc.cycle - s.sc.cycle < 40
  omega

theorem mem_insertEntry {e x : FaultEntry} {es : List FaultEntry} : x ∈ insertEntry e es ↔ x = e ∨ x ∈ es := by
  rw [(insertEntry_perm e es).mem_iff, List.mem_cons]

/-- A repeated confirmation (R152). -/
theorem confirmFault_repeats {src : FaultSource} {s : State} {e : FaultEntry} (mem : e ∈ s.fm.index) (named : e.src = src)
    {t : State} (fm : t.fm =
      { s.fm with
        index := s.fm.index.map fun x =>
          if x.src = src then e.repeated (s.severity src) s.sc.opSeconds s.sc.cycle else x }) : Confirms src s t := by
  set e' := e.repeated (s.severity src) s.sc.opSeconds s.sc.cycle with e'_eq
  have named' : e'.src = src := named
  have index : t.fm.index = s.fm.index.map fun x => if x.src = src then e' else x := by rw [fm]
  have back {y : FaultEntry} (hy : y ∈ t.fm.index) : y = e' ∨ y ∈ s.fm.index ∧ y.src ≠ src := by
    rw [index, List.mem_map] at hy
    obtain ⟨x, hx, rfl⟩ := hy
    split
    · exact .inl rfl
    · exact .inr ⟨hx, ‹_›⟩
  refine ⟨by rw [fm], fun young y hy => ?_, fun y hy other => ?_, fun _ => ⟨by rw [fm], ?_, fun y hy other => ?_, e', ?_, named',
    ?_⟩⟩
  · rcases back hy with rfl | ⟨hy, -⟩
    · show s.sc.cycle - max e.lastCycle s.sc.cycle < 40
      omega
    · exact young y hy
  · exact ((back hy).resolve_left fun h => other (h ▸ named')).1
  · rw [index, List.length_map]
    omega
  · rw [index, List.mem_map]
    exact ⟨y, hy, if_neg other⟩
  · rw [index, List.mem_map]
    exact ⟨e, mem, if_pos named⟩
  · exact Nat.le_max_right _ _

theorem confirmFault_confirms (src : FaultSource) (s : State) : Confirms src s (confirmFault src s) := by
  rcases confirmFault_cases src s with ⟨e, found, eq⟩ | ⟨new, ⟨room, eq⟩ | ⟨full, v, hv, eq⟩ | ⟨full, -, eq⟩⟩
  · rw [eq]
    exact confirmFault_repeats (List.mem_of_find?_eq_some found) (by simpa using List.find?_some found) rfl
  · rw [eq]
    have fm := createEntry_fm src none s
    have index : (createEntry src none s).fm.index = insertEntry (s.newEntry src none) s.fm.index := by rw [fm]
    refine ⟨by rw [fm], fun young e he => ?_, fun e he other => ?_, fun _ => ⟨by rw [fm], ?_, fun e he _ => ?_,
      s.newEntry src none, ?_, rfl, Nat.le_refl _⟩⟩
    · rw [index, mem_insertEntry] at he
      exact he.elim (fun h => h ▸ newEntry_young s src none) (young e)
    · rw [index, mem_insertEntry] at he
      exact he.resolve_left fun h => other (h ▸ rfl)
    · rw [index, (insertEntry_perm _ _).length_eq, List.length_cons]
    · rw [index]
      exact mem_insertEntry.2 (.inr he)
    · rw [index]
      exact mem_insertEntry.2 (.inl rfl)
  · rw [eq]
    set d := displaceEntry v.src src s with d_eq
    have sc : d.sc = s.sc := (displaceEntry_only s v.src src).sc
    have fm : (createEntry src (some v.src) d).fm =
        { s.fm with
          index := insertEntry (d.newEntry src (some v.src)) (s.fm.index.filter fun e => decide (e.src ≠ v.src)) } := rfl
    have back {e : FaultEntry} (he : e ∈ (createEntry src (some v.src) d).fm.index) :
        e = d.newEntry src (some v.src) ∨ e ∈ s.fm.index := by
      rw [fm, mem_insertEntry] at he
      exact he.imp_right fun h => (List.mem_filter.1 h).1
    refine ⟨by rw [fm], fun young e he => ?_, fun e he other => ?_, fun room => absurd room (by omega)⟩
    · exact (back he).elim (fun h => h ▸ sc ▸ newEntry_young d src _) (young e)
    · exact (back he).resolve_left fun h => other (h ▸ rfl)
  · rw [eq]
    exact ⟨rfl, fun young => young, fun e he _ => he, fun room => absurd room (by omega)⟩

/-! ## Aging (R159) -/

/-- The index aged. -/
theorem ageEntries_fm (s : State) : Only [.reports, .fm] s (ageEntries s) ∧
    (ageEntries s).fm = { s.fm with index := s.fm.index.filter fun e => decide (s.sc.cycle - e.lastCycle < 40) } := by
  have reports (old : List FaultEntry) (t : State) : Only [.reports] t
      (old.foldl (fun t e => report .agedOut (faultCode e.src) (val e.lastCycle) t) t) :=
    Only.foldl fun e t => report_only t _ _ _
  have kept (e : FaultEntry) : (!e.aged s.sc.cycle) = decide (s.sc.cycle - e.lastCycle < 40) := by
    rw [FaultEntry.aged, ← decide_not]
    exact decide_eq_decide.2 (by omega)
  refine ⟨(modFm_only s _).mono.andThen (reports _ _), ?_⟩
  refine (reports _ _).fm.trans ?_
  simp only [State.modFm_fm, kept]

/-- Where no entry has aged nothing happens. -/
theorem ageEntries_none {s : State} (h : (s.fm.index.any fun e => e.aged s.sc.cycle) = false) : ageEntries s = s := by
  rw [List.any_eq_false] at h
  have none : s.fm.index.filter (fun e => e.aged s.sc.cycle) = [] := List.filter_eq_nil_iff.2 h
  have all : s.fm.index.filter (fun e => !e.aged s.sc.cycle) = s.fm.index :=
    List.filter_eq_self.2 fun e he => by simpa using h e he
  show (s.fm.index.filter fun e => e.aged s.sc.cycle).foldl _ (s.modFm fun f => { f with index := _ }) = s
  rw [none]
  show { s with fm := { s.fm with index := s.fm.index.filter fun e => !e.aged s.sc.cycle } } = s
  rw [all]

end Sys2Proof.Machine
end
section
/-! PROOFS. The evaluation of the warnings on the view of RUN entry (R97, R98, R100, R103, R110, R117, R118): what each warning in
turn does to the WM, the AO and the FM. -/

namespace Sys2Proof.Machine

set_option Elab.async false

/-! ## The view of RUN entry (R95, R97, R110) -/

theorem anyLeaf_true (ls : BitVec 8) (door : Vector DoorCond 8) (p : DoorCond → Bool) (all : ∀ l : Fin 8, p door[l] = true) :
    anyLeaf ls door p = decide (ls ≠ 0) := by
  have named : anyLeaf ls door p = (List.finRange 8).any fun l => inLeafSet ls l := by
    simp only [anyLeaf, all, Bool.and_true]
  rw [named, Bool.eq_iff_iff, decide_eq_true_iff, List.any_eq_true]
  constructor
  · rintro ⟨l, -, on⟩ rfl
    simp [inLeafSet] at on
  · intro some
    by_contra none
    refine some (BitVec.eq_of_getLsbD_eq fun i hi => ?_)
    have off : inLeafSet ls ⟨i, hi⟩ = false := by
      rw [← Bool.not_eq_true]
      exact fun on => none ⟨⟨i, hi⟩, List.mem_finRange _, on⟩
    rw [show ls.getLsbD i = inLeafSet ls ⟨i, hi⟩ from rfl, off]
    simp

theorem anyLeaf_false (ls : BitVec 8) (door : Vector DoorCond 8) (p : DoorCond → Bool) (all : ∀ l : Fin 8, p door[l] = false) :
    anyLeaf ls door p = false := by
  rw [anyLeaf, List.any_eq_false]
  intro l _
  rw [all l, Bool.and_false]
  decide

/-- A leaf as the view of RUN entry has it. -/
theorem runEntry_door (supply : SupplyState) (l : Fin 8) : (View.runEntry supply).door[l] =
    { notSecure := true, released := false, obstructed := false, fault := false } := Vector.getElem_replicate l.isLt

theorem runEntry_chan (supply : SupplyState) (ch : Fin 40) : (View.runEntry supply).chan[ch] =
    { status := .init, value := none, reading := none } := Vector.getElem_replicate ch.isLt

theorem runEntry_display (supply : SupplyState) (g : Fin 8) : (View.runEntry supply).display[g] = none :=
  Vector.getElem_replicate g.isLt

/-- The condition values of RUN entry. -/
theorem value_runEntry (s : State) (c : Condition) : c.value (View.runEntry s.ci.supply) false = s.trueAtEntry c := by
  cases c with
  | switchActive ch => simp only [Condition.value, runEntry_chan]; rfl
  | channelFault ch => simp only [Condition.value, runEntry_chan]; rfl
  | channelLost ch => simp only [Condition.value, runEntry_chan]; rfl
  | valueBelow g t h => simp only [Condition.value, runEntry_display]; rfl
  | valueAbove g t h => simp only [Condition.value, runEntry_display]; rfl
  | doorNotSecure ls => exact anyLeaf_true ls _ _ fun l => by rw [runEntry_door]
  | doorReleased ls => exact anyLeaf_false ls _ _ fun l => by rw [runEntry_door]
  | doorObstructed ls => exact anyLeaf_false ls _ _ fun l => by rw [runEntry_door]
  | doorFault ls => exact anyLeaf_false ls _ _ fun l => by rw [runEntry_door]
  | supplyLow => rfl
  | supplyHigh => rfl
  | motionUnknown => rfl

theorem holds_standstill (g : Gating) : g.holds .standstill = decide (g ≠ .moving) := by cases g <;> rfl

/-! ## What the warnings asked so far leave (R98, R100, R103) -/

/-- The warnings of a list that enter ACTIVE at RUN entry. -/
def State.startsIn (s : State) (ws : List (Fin 64)) : List (Fin 64) := ws.filter s.activeAtEntry

/-- The active warning list after some warnings: by priority, in each the last first (R103). -/
def State.listed (s : State) (ws : List (Fin 64)) : List (Fin 64) :=
  [Priority.stop, .caution, .advisory, .notice].flatMap fun p =>
    (s.startsIn ws).reverse.filter fun w => decide ((s.wm.defs[w]).map (·.priority) = some p)

/-- The chime claim of the first of some warnings that names a pattern. -/
def State.claimed (s : State) (ws : List (Fin 64)) : ChimeSource :=
  match ws.find? s.chimes with
  | some w => .owner w (s.actAtEntry w)
  | none => .none

/-- A warning before it is asked: at rest with its condition value. -/
def State.instBefore (s : State) (w : Fin 64) : WarnInst :=
  match s.wm.defs[w] with
  | none => { state := .inactive, cond := false, delayT := none, alertT := none, act := none }
  | some d => { state := .inactive, cond := s.trueAtEntry d.cond, delayT := none, alertT := none, act := none }

/-- A warning once it has been asked. -/
def State.instAtEntry (s : State) (w : Fin 64) : WarnInst :=
  match s.wm.defs[w] with
  | none => { state := .inactive, cond := false, delayT := none, alertT := none, act := none }
  | some d =>
    { state := if s.activeAtEntry w then .active else if s.qualifiedAtEntry w then .delaying else .inactive
      cond := s.trueAtEntry d.cond
      delayT := if s.qualifiedAtEntry w ∧ ¬ s.activeAtEntry w then some (100 * d.delay) else none
      alertT := none
      act := if s.activeAtEntry w then some (s.actAtEntry w) else none }

/-- The WM once some warnings have been asked. -/
structure State.WarnsAt (s : State) (ws : List (Fin 64)) (m : WarnMgr) : Prop where
  kept    : m.defs = s.wm.defs ∧ m.floor = .notice ∧ m.view = some (.runEntry s.ci.supply)
  counter : m.counter = s.wm.counter + BitVec.ofNat 32 (s.startsIn ws).length
  list    : m.list = s.listed ws
  asked   : ∀ w ∈ ws, m.inst[w] = s.instAtEntry w
  waiting : ∀ w, w ∉ ws → m.inst[w] = s.instBefore w

/-- The AO once some warnings have been asked. -/
structure State.OutputsAt (s : State) (ws : List (Fin 64)) (a : Alert) : Prop where
  begun    : a.Begun
  lamps    : a.used = s.ao.used ∧ a.patterns = s.ao.patterns
  copy     : a.listCopy = (s.listed ws).map fun w => { w, state := .active, act := s.actAtEntry w }
  claimant : a.claimant = s.claimed (s.listed ws)
  source   : (∀ (w : Fin 64) (d : WarnDef) (p : Fin 8), s.wm.defs[w] = some d → d.pattern = some p →
    s.ao.patterns[p].isSome) → a.source = s.claimed (s.startsIn ws)

/-- Some warning of a list hands the presence of the source. -/
def State.linkedIn (s : State) (ws : List (Fin 64)) (src : FaultSource) : Prop :=
  ∃ w ∈ ws, src = .warning w ∧ s.linkedAtEntry w = true

/-- The FM and the JC once some warnings have been asked, from the state `b` before the first. -/
structure State.FaultsAt (s b : State) (ws : List (Fin 64)) (t : State) : Prop where
  kept    : t.fm.freeze = b.fm.freeze ∧ t.fm.clearPending = b.fm.clearPending
  present : ∀ src, t.fm.present src = true ↔ b.fm.present src = true ∨ s.linkedIn ws src
  linked  : ∀ src, s.linkedIn ws src → t.fm.tracker src = { state := .confirmed, timer := none }
  others  : ∀ src, ¬ s.linkedIn ws src → t.fm.tracker src = b.fm.tracker src
  young   : ∀ e ∈ t.fm.index, e.young b.sc.cycle
  idle    : (∀ w ∈ ws, s.linkedAtEntry w = false) → t.fm.index = b.fm.index ∧ t.fm.full = b.fm.full ∧ t.jc = b.jc
  room    : b.fm.index.length + (ws.filter s.linkedAtEntry).length ≤ 32 →
    t.fm.full = b.fm.full ∧ t.fm.index.length ≤ b.fm.index.length + (ws.filter s.linkedAtEntry).length ∧
      (∀ e ∈ b.fm.index, ¬ s.linkedIn ws e.src → e ∈ t.fm.index) ∧
      ∀ w ∈ ws, s.linkedAtEntry w = true → ∃ e ∈ t.fm.index, e.src = .warning w

/-- Everything once some warnings have been asked. -/
structure State.AskedAt (s b : State) (ws : List (Fin 64)) (t : State) : Prop where
  sc      : t.sc = b.sc
  warns   : s.WarnsAt ws t.wm
  outputs : s.OutputsAt ws t.ao
  faults  : s.FaultsAt b ws t

/-! ## The warning that is asked next -/

section
variable {s : State} {ws : List (Fin 64)} {w : Fin 64}

theorem activeAtEntry_def (h : s.activeAtEntry w = true) :
    s.qualifiedAtEntry w = true ∧ ∃ d, s.wm.defs[w] = some d ∧ d.delay = 0 := by
  rw [State.activeAtEntry, Bool.and_eq_true, decide_eq_true_eq, Option.map_eq_some_iff] at h
  exact h

theorem startsIn_next : s.startsIn (ws ++ [w]) = s.startsIn ws ++ if s.activeAtEntry w then [w] else [] := by
  rw [State.startsIn, List.filter_append, List.filter_cons, List.filter_nil]
  rfl

theorem mem_listed {x : Fin 64} : x ∈ s.listed ws ↔ x ∈ s.startsIn ws := by
  simp only [State.listed, List.mem_flatMap, List.mem_filter, List.mem_reverse, decide_eq_true_eq]
  constructor
  · rintro ⟨-, -, mem, -⟩
    exact mem
  · intro mem
    obtain ⟨-, d, hd, -⟩ := activeAtEntry_def (List.mem_filter.1 mem).2
    refine ⟨d.priority, ?_, mem, by rw [hd]; rfl⟩
    cases d.priority <;> decide

theorem listed_same (h : s.activeAtEntry w = false) : s.listed (ws ++ [w]) = s.listed ws := by
  simp only [State.listed, startsIn_next, h, Bool.false_eq_true, if_false, List.append_nil]

/-- A warning goes before the first that is not of higher priority (R103). -/
theorem insertWarning_at (prio : Fin 64 → Priority) (w : Fin 64) (before after : List (Fin 64))
    (higher : ∀ x ∈ before, (prio w).code < (prio x).code) (rest : ∀ x ∈ after, ¬ (prio w).code < (prio x).code) :
    insertWarning prio w (before ++ after) = before ++ w :: after := by
  induction before with
  | nil =>
    cases after with
    | nil => rfl
    | cons x xs => exact if_neg (rest x List.mem_cons_self)
  | cons x xs ih =>
    exact (if_pos (higher x List.mem_cons_self)).trans
      (congrArg _ (ih fun y hy => higher y (List.mem_cons_of_mem _ hy)))

/-- The list takes a warning at the place of its priority. -/
theorem insertWarning_listed {prio : Fin 64 → Priority} {d : WarnDef} (def? : s.wm.defs[w] = some d)
    (prios : ∀ x p, (s.wm.defs[x]).map (·.priority) = some p → prio x = p) (h : s.activeAtEntry w = true) :
    insertWarning prio w (s.listed ws) = s.listed (ws ++ [w]) := by
  have own : prio w = d.priority := prios w _ (by rw [def?]; rfl)
  have next : (s.startsIn (ws ++ [w])).reverse = w :: (s.startsIn ws).reverse := by
    rw [startsIn_next, if_pos h, List.reverse_append]
    rfl
  have priorities (p : Priority) (x : Fin 64)
      (hx : x ∈ (s.startsIn ws).reverse.filter fun w => decide ((s.wm.defs[w]).map (·.priority) = some p)) : prio x = p :=
    prios x p (of_decide_eq_true (List.mem_filter.1 hx).2)
  have group (p : Priority) : ((s.startsIn (ws ++ [w])).reverse.filter fun w =>
      decide ((s.wm.defs[w]).map (·.priority) = some p)) = if d.priority = p then
        w :: (s.startsIn ws).reverse.filter fun w => decide ((s.wm.defs[w]).map (·.priority) = some p)
      else (s.startsIn ws).reverse.filter fun w => decide ((s.wm.defs[w]).map (·.priority) = some p) := by
    rw [next, List.filter_cons, def?]
    simp only [Option.map_some, Option.some.injEq, decide_eq_true_eq]
  unfold State.listed
  simp only [List.flatMap_cons, List.flatMap_nil, List.append_nil, group]
  have stop := priorities .stop
  have caution := priorities .caution
  have advisory := priorities .advisory
  have notice := priorities .notice
  generalize (s.startsIn ws).reverse.filter (fun w => decide ((s.wm.defs[w]).map (·.priority) = some .stop)) = a at *
  generalize (s.startsIn ws).reverse.filter (fun w => decide ((s.wm.defs[w]).map (·.priority) = some .caution)) = b at *
  generalize (s.startsIn ws).reverse.filter (fun w => decide ((s.wm.defs[w]).map (·.priority) = some .advisory)) = c at *
  generalize (s.startsIn ws).reverse.filter (fun w => decide ((s.wm.defs[w]).map (·.priority) = some .notice)) = e at *
  have above {l : List (Fin 64)} {p : Priority} (hl : ∀ x ∈ l, prio x = p) (lt : d.priority.code < p.code) :
      ∀ x ∈ l, (prio w).code < (prio x).code := fun x hx => by rwa [own, hl x hx]
  have below {l : List (Fin 64)} {p : Priority} (hl : ∀ x ∈ l, prio x = p) (le : p.code ≤ d.priority.code) :
      ∀ x ∈ l, ¬ (prio w).code < (prio x).code := fun x hx => by rw [own, hl x hx]; omega
  have join {P : Fin 64 → Prop} {l m : List (Fin 64)} (hl : ∀ x ∈ l, P x) (hm : ∀ x ∈ m, P x) : ∀ x ∈ l ++ m, P x :=
    fun x hx => (List.mem_append.1 hx).elim (hl x) (hm x)
  cases hp : d.priority <;> rw [hp] at above below
  case stop =>
    simpa using insertWarning_at prio w [] (a ++ (b ++ (c ++ e))) nofun
      (join (below stop (by decide)) (join (below caution (by decide)) (join (below advisory (by decide))
        (below notice (by decide)))))
  case caution =>
    simpa using insertWarning_at prio w a (b ++ (c ++ e)) (above stop (by decide))
      (join (below caution (by decide)) (join (below advisory (by decide)) (below notice (by decide))))
  case advisory =>
    simpa using insertWarning_at prio w (a ++ b) (c ++ e) (join (above stop (by decide)) (above caution (by decide)))
      (join (below advisory (by decide)) (below notice (by decide)))
  case notice =>
    simpa using insertWarning_at prio w (a ++ (b ++ c)) e
      (join (above stop (by decide)) (join (above caution (by decide)) (above advisory (by decide))))
      (below notice (by decide))

/-- The activation sequence a warning takes counts those that started before it. -/
theorem actAtEntry_next {rest : List (Fin 64)} (order : ws ++ w :: rest = List.finRange 64) :
    s.actAtEntry w = s.wm.counter + BitVec.ofNat 32 (s.startsIn ws).length := by
  have sorted : (ws ++ w :: rest).Pairwise (· < ·) := order ▸ List.pairwise_lt_finRange 64
  obtain ⟨-, tail, cross⟩ := List.pairwise_append.1 sorted
  have earlier : s.startsAtEntry.filter (fun x => decide (x < w)) = s.startsIn ws := by
    rw [State.startsAtEntry, ← order, List.filter_filter, State.startsIn, List.filter_append]
    have none : (w :: rest).filter (fun x => decide (x < w) && s.activeAtEntry x) = [] := by
      refine List.filter_eq_nil_iff.2 fun x hx => ?_
      have notLess : ¬ x < w := by
        rcases List.mem_cons.1 hx with rfl | hx
        · exact lt_irrefl x
        · exact lt_asymm ((List.pairwise_cons.1 tail).1 x hx)
      simp [notLess]
    rw [none, List.append_nil]
    refine List.filter_congr fun x hx => ?_
    rw [decide_eq_true (cross x hx w List.mem_cons_self), Bool.true_and]
  rw [State.actAtEntry, earlier]

theorem next_fresh {rest : List (Fin 64)} (order : ws ++ w :: rest = List.finRange 64) : w ∉ ws := by
  have nodup : (ws ++ w :: rest).Nodup := order ▸ List.nodup_finRange 64
  exact fun mem => (List.nodup_append.1 nodup).2.2 w mem w List.mem_cons_self rfl

end

end Sys2Proof.Machine
end
section
/-! PROOFS. One warning asked on the view of RUN entry, at the WM, the AO and the FM (R98, R100, R109, R117, R118). -/

namespace Sys2Proof.Machine

set_option Elab.async false

/-! ## The WM (R98, R100) -/

section
variable {s t : State} {ws rest : List (Fin 64)} {w : Fin 64}

/-- A warning that is not qualified stays as it is. -/
theorem State.WarnsAt.unqualified {m : WarnMgr} (h : s.WarnsAt ws m) (fresh : w ∉ ws) (no : s.qualifiedAtEntry w = false) :
    s.WarnsAt (ws ++ [w]) m := by
  have inactive : s.activeAtEntry w = false := by rw [State.activeAtEntry, no, Bool.false_and]
  refine ⟨h.kept, by rw [h.counter, startsIn_next, inactive]; simp, by rw [h.list, listed_same inactive], fun x hx => ?_,
    fun x hx => h.waiting x fun mem => hx (List.mem_append_left _ mem)⟩
  rcases List.mem_append.1 hx with hx | hx
  · exact h.asked x hx
  · obtain rfl := List.mem_singleton.1 hx
    rw [h.waiting x fresh, State.instAtEntry, State.instBefore]
    simp only [inactive, no, Bool.false_eq_true, if_false, false_and]

/-- One warning of the table moved to what it is once asked. -/
theorem State.WarnsAt.inst {m : WarnMgr} (h : s.WarnsAt ws m) {inst : Vector WarnInst 64}
    (moved : inst[w] = s.instAtEntry w) (others : ∀ x, x ≠ w → inst[x] = m.inst[x]) :
    (∀ x ∈ ws ++ [w], inst[x] = s.instAtEntry x) ∧ ∀ x, x ∉ ws ++ [w] → inst[x] = s.instBefore x := by
  refine ⟨fun x hx => ?_, fun x hx => ?_⟩
  · by_cases hxw : x = w
    · rw [hxw, moved]
    · rw [others x hxw]
      exact h.asked x ((List.mem_append.1 hx).resolve_right fun h => hxw (List.mem_singleton.1 h))
  · rw [others x fun h => hx (List.mem_append_right _ (List.mem_singleton.2 h))]
    exact h.waiting x fun mem => hx (List.mem_append_left _ mem)

theorem setWarnState_wm (w : Fin 64) (st : WarnState) (t : State) (f : WarnInst → WarnInst) :
    (setWarnState w st (t.modInst w f)).wm =
      { t.wm with inst := vmod (vmod t.wm.inst w f) w fun i => { i with state := st } } := rfl

/-- A qualified warning with a delay starts to wait. -/
theorem State.WarnsAt.delays (h : s.WarnsAt ws t.wm) (fresh : w ∉ ws) {d : WarnDef} (def? : s.wm.defs[w] = some d)
    (yes : s.qualifiedAtEntry w = true) (inactive : s.activeAtEntry w = false) :
    s.WarnsAt (ws ++ [w]) (setWarnState w .delaying (t.modInst w fun i => { i with delayT := some (d.delay * 100) })).wm := by
  rw [setWarnState_wm, vmod_vmod]
  obtain ⟨asked, waiting⟩ := h.inst (w := w)
    (inst := vmod t.wm.inst w fun x => { x with delayT := some (d.delay * 100), state := .delaying })
    (by
      rw [vmod_self, h.waiting w fresh, State.instBefore, State.instAtEntry, def?]
      simp only [inactive, yes, Bool.false_eq_true, if_false, if_true, not_false_eq_true, and_self, Nat.mul_comm])
    fun x hx => vmod_ne _ _ (Ne.symm hx)
  exact ⟨h.kept, by rw [startsIn_next, inactive]; simpa using h.counter, by rw [listed_same inactive]; exact h.list, asked,
    waiting⟩

theorem activated_wm (w : Fin 64) (t : State) : (setWarnState w .active (activate w t)).wm =
    { t.wm with
      inst := vmod (vmod t.wm.inst w fun i => { i with delayT := none, alertT := none, act := some t.wm.counter }) w
        fun i => { i with state := .active }
      counter := t.wm.counter + 1
      list := insertWarning t.warnPriority w (dropWarning w t.wm.list) } := rfl

/-- A qualified warning without a delay enters ACTIVE and takes its place in the list. -/
theorem State.WarnsAt.activates (h : s.WarnsAt ws t.wm) (order : ws ++ w :: rest = List.finRange 64)
    (active : s.activeAtEntry w = true) : s.WarnsAt (ws ++ [w]) (setWarnState w .active (activate w t)).wm := by
  have fresh := next_fresh order
  obtain ⟨yes, d, def?, -⟩ := activeAtEntry_def active
  obtain ⟨defs, -⟩ := h.kept
  have act : t.wm.counter = s.actAtEntry w := by rw [h.counter, actAtEntry_next order]
  have absent : w ∉ t.wm.list := by
    rw [h.list, mem_listed]
    exact fun mem => fresh (List.mem_filter.1 mem).1
  have list : insertWarning t.warnPriority w (dropWarning w t.wm.list) = s.listed (ws ++ [w]) := by
    have same : dropWarning w t.wm.list = t.wm.list := List.filter_eq_self.2 fun x hx => by
      simpa using fun e : x = w => absent (e ▸ hx)
    rw [same, h.list]
    refine insertWarning_listed def? (fun x p hp => ?_) active
    rw [State.warnPriority, defs, hp]
    rfl
  rw [activated_wm, vmod_vmod, list]
  obtain ⟨asked, waiting⟩ := h.inst (w := w)
    (inst := vmod t.wm.inst w fun x => { x with delayT := none, alertT := none, act := some t.wm.counter, state := .active })
    (by
      rw [vmod_self, h.waiting w fresh, State.instBefore, State.instAtEntry, def?, act]
      simp only [active, if_true, not_true_eq_false, and_false, if_false])
    fun x hx => vmod_ne _ _ (Ne.symm hx)
  refine ⟨h.kept, ?_, rfl, asked, waiting⟩
  show t.wm.counter + 1 = _
  rw [h.counter, startsIn_next, if_pos active, List.length_append, List.length_singleton, BitVec.ofNat_add, BitVec.add_assoc]
  rfl

/-! ## The AO (R117, R118) -/

/-- A derivation in RUN at the beginning of a phase moves claimant and source alone. -/
theorem deriveChime_run {t : State} (run : t.sc.opState = .run) (begun : t.ao.phase = 0 ∧ t.ao.genQ = 0 ∧ t.ao.burst = 0) :
    (deriveChime t).ao = { t.ao with claimant := t.claimantNow, source := (deriveChime t).ao.source } := by
  obtain ⟨phase, genQ, burst⟩ := begun
  rcases deriveChime_cases t with ⟨-, -, e⟩ | ⟨-, e⟩
  · have stays (x : State) (h : x.sc.opState = .run) : stopGenerator x = x := if_neg (by simp [h])
    rw [e, chimeSwitch, stays _ (by exact run)]
    simp only [State.modAo_ao, phase, genQ, burst]
  · rw [e]
    rfl

/-- From silence a derivation makes the claimant the source. -/
theorem deriveChime_silent {t : State} (silent : t.ao.source = .none) : (deriveChime t).ao.source = t.claimantNow := by
  rcases deriveChime_cases t with ⟨-, -, e⟩ | ⟨same, e⟩
  · rw [e, chimeSwitch, stopGenerator_ao]
    rfl
  · rw [e]
    exact (same.resolve_right fun sounds => sounds (chimeTone_none silent)).symm

/-- A tone that sounds keeps its source. -/
theorem deriveChime_sounding {t : State} (sounds : t.chimeTone ≠ none) : (deriveChime t).ao.source = t.ao.source := by
  rcases deriveChime_cases t with ⟨-, silent, -⟩ | ⟨-, e⟩
  · exact absurd ((chimeTone_congr rfl rfl rfl rfl).trans silent) sounds
  · rw [e]
    rfl

/-- Every envelope is on at phase 0 (R115). -/
theorem envOn_zero (env : EnvSet) : envOn env 0 = true := by simp [envOn]

/-- The chime claims in a list of ACTIVE warnings with nothing finished: the first that names a pattern. -/
theorem claimantNow_listed {t : State} (defs : t.wm.defs = s.wm.defs) (begun : t.ao.Begun) {l : List (Fin 64)}
    (copy : t.ao.listCopy = l.map fun w => { w, state := .active, act := s.actAtEntry w }) :
    t.claimantNow = s.claimed l := by
  have claims (w : Fin 64) : t.claimsChime { w, state := .active, act := s.actAtEntry w } = s.chimes w := by
    simp only [State.claimsChime, State.chimes, defs, begun.finished, begun.floor]
    cases s.wm.defs[w] with
    | none => rfl
    | some d =>
      have lowest : Priority.notice.code ≤ d.priority.code := Nat.zero_le _
      simp [lowest]
  have find : (t.ao.listCopy.find? t.claimsChime) =
      (l.find? s.chimes).map fun w => { w, state := .active, act := s.actAtEntry w } := by
    rw [copy, List.find?_map]
    congr 1
    exact congrArg (List.find? · l) (funext claims)
  rw [State.claimantNow, begun.noTest, State.claimed, find]
  cases l.find? s.chimes <;> rfl

/-- Only the warning that starts the chime names a pattern: its claim is the list's. -/
theorem claimed_first (silent : s.claimed (s.startsIn ws) = .none) :
    s.claimed (s.listed (ws ++ [w])) = s.claimed (s.startsIn (ws ++ [w])) := by
  have noChime : ∀ x ∈ s.startsIn ws, s.chimes x = false := by
    unfold State.claimed at silent
    split at silent
    · exact absurd silent nofun
    · rename_i h
      exact fun x hx => by simpa using List.find?_eq_none.1 h x hx
  have only {x : Fin 64} (hx : x ∈ s.startsIn (ws ++ [w])) (chimes : s.chimes x = true) : x = w := by
    rw [startsIn_next, List.mem_append] at hx
    rcases hx with hx | hx
    · exact absurd chimes (by simp [noChime x hx])
    · split at hx
      · exact List.mem_singleton.1 hx
      · exact absurd hx List.not_mem_nil
  unfold State.claimed
  cases first : (s.startsIn (ws ++ [w])).find? s.chimes with
  | none =>
    have silentToo : (s.listed (ws ++ [w])).find? s.chimes = none := by
      rw [List.find?_eq_none] at first ⊢
      exact fun x hx => first x (mem_listed.1 hx)
    rw [silentToo]
  | some x =>
    have chimes := List.find?_some first
    have mem := List.mem_of_find?_eq_some first
    cases head : (s.listed (ws ++ [w])).find? s.chimes with
    | none => exact absurd chimes (List.find?_eq_none.1 head x (mem_listed.2 mem))
    | some y =>
      rw [only mem chimes, only (mem_listed.1 (List.mem_of_find?_eq_some head)) (List.find?_some head)]

/-- A chime that has started stays the first of those that start. -/
theorem claimed_stays {a : Fin 64} {act : Word32} (owned : s.claimed (s.startsIn ws) = .owner a act) :
    s.claimed (s.startsIn (ws ++ [w])) = .owner a act ∧ s.chimes a = true := by
  unfold State.claimed at owned ⊢
  rw [startsIn_next, List.find?_append]
  split at owned
  · rename_i x h
    have named := List.find?_some h
    rw [h]
    injection owned with hx hact
    subst hx
    exact ⟨congrArg _ hact, named⟩
  · exact absurd owned nofun

theorem claimed_owner (l : List (Fin 64)) : s.claimed l = .none ∨ ∃ a act, s.claimed l = .owner a act := by
  unfold State.claimed
  split
  · exact .inr ⟨_, _, rfl⟩
  · exact .inl rfl

/-- A warning that names a pattern in force sounds at the beginning of a phase. -/
theorem chimeTone_sounds {t : State} (defs : t.wm.defs = s.wm.defs) (patterns : t.ao.patterns = s.ao.patterns)
    (phase : t.ao.phase = 0) {a : Fin 64} {act : Word32} (source : t.ao.source = .owner a act) (chimes : s.chimes a = true)
    (named : ∀ (w : Fin 64) (d : WarnDef) (p : Fin 8), s.wm.defs[w] = some d → d.pattern = some p → s.ao.patterns[p].isSome) :
    t.chimeTone ≠ none := by
  obtain ⟨p, hp⟩ := Option.isSome_iff_exists.1 chimes
  obtain ⟨d, hd, hdp⟩ := Option.bind_eq_some_iff.1 hp
  obtain ⟨q, hq⟩ := Option.isSome_iff_exists.1 (named a d p hd hdp)
  simp only [State.chimeTone, State.sourcePattern, source, defs, patterns, hd, Option.bind_some, hdp, hq, phase, envOn_zero,
    if_true]
  exact nofun

theorem takeList_eq (t : State) : takeList t = deriveChime (refreshLamps (t.modAo fun a => { a with listCopy := t.listEntries })) :=
  rfl

/-- The AO takes the list once a warning has started. -/
theorem State.OutputsAt.takes (h : s.OutputsAt ws t.ao) (warns : s.WarnsAt (ws ++ [w]) t.wm) (run : t.sc.opState = .run) :
    s.OutputsAt (ws ++ [w]) (takeList t).ao := by
  obtain ⟨defs, -⟩ := warns.kept
  have copy : t.listEntries = (s.listed (ws ++ [w])).map fun w => { w, state := .active, act := s.actAtEntry w } := by
    rw [State.listEntries, warns.list]
    refine List.map_congr_left fun x hx => ?_
    obtain ⟨mem, active⟩ := List.mem_filter.1 (mem_listed.1 hx)
    obtain ⟨-, d, hd, -⟩ := activeAtEntry_def active
    rw [warns.asked x mem, State.instAtEntry, hd]
    simp [active]
  rw [takeList_eq]
  set u := refreshLamps (t.modAo fun a => { a with listCopy := t.listEntries }) with u_eq
  obtain ⟨bulb, running, phase, lit, overrides, noTest, finished, floor⟩ := h.begun
  have begun : u.ao.Begun := by
    refine ⟨bulb, running, phase, fun l => ?_, overrides, noTest, finished, floor⟩
    rw [u_eq, refreshLamps_ao, tab_get]
    exact lampDrive_bulb (by exact bulb) l (by exact overrides l)
  have claimant := claimantNow_listed (s := s) (t := u) defs begun copy
  have derived := deriveChime_run (t := u) run begun.phase
  rw [derived]
  refine ⟨⟨bulb, running, phase, begun.lit, overrides, noTest, finished, floor⟩, h.lamps, copy, claimant, fun named => ?_⟩
  have before : u.ao.source = s.claimed (s.startsIn ws) := h.source named
  show (deriveChime u).ao.source = _
  rcases claimed_owner (s := s) (s.startsIn ws) with none | ⟨a, act, owner⟩
  · rw [deriveChime_silent (before.trans none), claimant, claimed_first none]
  · obtain ⟨stays, chimes⟩ := claimed_stays (w := w) owner
    rw [deriveChime_sounding (t := u) (chimeTone_sounds (s := s) defs h.lamps.2 phase.1 (before.trans owner) chimes named),
      before, owner, stays]

/-- Where a warning does not start the AO stands. -/
theorem State.OutputsAt.stays {a : Alert} (h : s.OutputsAt ws a) (inactive : s.activeAtEntry w = false) :
    s.OutputsAt (ws ++ [w]) a := by
  have starts : s.startsIn (ws ++ [w]) = s.startsIn ws := by
    rw [startsIn_next, inactive]
    simp
  exact ⟨h.begun, h.lamps, by rw [listed_same inactive]; exact h.copy, by rw [listed_same inactive]; exact h.claimant,
    by rw [starts]; exact h.source⟩

/-! ## The FM (R109, R149) -/

theorem linkedIn_next (src : FaultSource) : s.linkedIn (ws ++ [w]) src ↔
    s.linkedIn ws src ∨ src = .warning w ∧ s.linkedAtEntry w = true := by
  simp only [State.linkedIn, List.mem_append, List.mem_singleton, or_and_right, exists_or, exists_eq_left]

/-- Where a warning does not hand its presence the FM stands. -/
theorem State.FaultsAt.stays {b t' : State} (h : s.FaultsAt b ws t) (no : s.linkedAtEntry w = false) (fm : t'.fm = t.fm)
    (jc : t'.jc = t.jc) : s.FaultsAt b (ws ++ [w]) t' := by
  have linked (src : FaultSource) : s.linkedIn (ws ++ [w]) src ↔ s.linkedIn ws src := by simp [linkedIn_next, no]
  have filtered : (ws ++ [w]).filter s.linkedAtEntry = ws.filter s.linkedAtEntry := by simp [no]
  refine ⟨?_, ?_, ?_, ?_, ?_, fun none => ?_, ?_⟩
  · rw [fm]
    exact h.kept
  · simp only [fm, linked]
    exact h.present
  · simp only [fm, linked]
    exact h.linked
  · simp only [fm, linked]
    exact h.others
  · rw [fm]
    exact h.young
  · rw [fm, jc]
    exact h.idle fun x hx => none x (List.mem_append_left _ hx)
  · rw [filtered, fm]
    simp only [linked]
    refine fun room => ?_
    obtain ⟨full, length, stays, entries⟩ := h.room room
    refine ⟨full, length, stays, fun x hx on => ?_⟩
    rcases List.mem_append.1 hx with hx | hx
    · exact entries x hx on
    · rw [List.mem_singleton.1 hx, no] at on
      exact absurd on nofun

/-- A warning hands its presence: it is CONFIRMED at once. -/
theorem State.FaultsAt.hands {b : State} (h : s.FaultsAt b ws t) (fresh : w ∉ ws) (yes : s.linkedAtEntry w = true)
    (cycle : t.sc.cycle = b.sc.cycle) (absent : b.fm.present (.warning w) = false)
    (rest : b.fm.tracker (.warning w) = .rest) : s.FaultsAt b (ws ++ [w]) (setPresence (.warning w) true t) := by
  have notYet : ¬ s.linkedIn ws (.warning w) := by
    rintro ⟨x, hx, e, -⟩
    injection e with e
    exact fresh (e ▸ hx)
  have before : t.fm.present (.warning w) = false := by
    rw [← Bool.not_eq_true, h.present]
    simp [absent, notYet]
  have tracker : t.fm.tracker (.warning w) = .rest := (h.others _ notYet).trans rest
  set u := setTracker (.warning w) { state := .confirmed, timer := none }
    (t.modFm fun f => f.withPresence (.warning w) true) with u_eq
  have eq : setPresence (.warning w) true t = confirmFault (.warning w) u := setPresence_starts before tracker
  have confirms := confirmFault_confirms (.warning w) u
  rw [eq]
  have present (src : FaultSource) : (confirmFault (.warning w) u).fm.present src =
      if FaultSource.warning w = src then true else t.fm.present src := by
    rw [confirms.frame]
    exact withPresence_present t.fm _ src true
  have tracked (src : FaultSource) : (confirmFault (.warning w) u).fm.tracker src =
      if FaultSource.warning w = src then { state := .confirmed, timer := none } else t.fm.tracker src := by
    rw [confirms.frame]
    exact (setTracker_tracker (.warning w) src _ _).trans (by simp)
  have index : u.fm.index = t.fm.index := rfl
  have full : u.fm.full = t.fm.full := rfl
  have count : ((ws ++ [w]).filter s.linkedAtEntry).length = (ws.filter s.linkedAtEntry).length + 1 := by simp [yes]
  refine ⟨?_, fun src => ?_, fun src => ?_, fun src => ?_, ?_, fun none => ?_, fun room => ?_⟩
  · rw [confirms.frame]
    exact h.kept
  · rw [present, linkedIn_next]
    split
    · rename_i e
      simp [← e, yes]
    · rename_i e
      rw [h.present src]
      simp [Ne.symm e]
  · rw [tracked, linkedIn_next]
    split
    · exact fun _ => rfl
    · rename_i e
      exact fun on => h.linked src (on.resolve_right fun on => e on.1.symm)
  · rw [tracked, linkedIn_next]
    split
    · rename_i e
      exact fun off => absurd (.inr ⟨e.symm, yes⟩) off
    · exact fun off => h.others src fun on => off (.inl on)
  · have young := h.young
    rw [← cycle] at young ⊢
    exact confirms.young young
  · exact absurd (none w (List.mem_append_right _ (List.mem_singleton.2 rfl))) (by simp [yes])
  · rw [count] at room ⊢
    obtain ⟨keptFull, length, stays, entries⟩ := h.room (by omega)
    obtain ⟨sameFull, grows, others, e, he, named, -⟩ := confirms.room (by rw [index]; omega)
    refine ⟨sameFull.trans (full.trans keptFull), by rw [index] at grows; omega, fun x hx off => ?_, fun x hx on => ?_⟩
    · rw [linkedIn_next] at off
      exact others x (stays x hx fun on => off (.inl on)) fun e => off (.inr ⟨e, yes⟩)
    · by_cases same : x = w
      · exact ⟨e, he, by rw [named, same]⟩
      · have hx := (List.mem_append.1 hx).resolve_right fun h => same (List.mem_singleton.1 h)
        obtain ⟨e, he, named⟩ := entries x hx on
        exact ⟨e, others e he (by rw [named]; exact fun h => same (by injection h)), named⟩

end

/-! ## The three together -/

/-- An entry to ACTIVE from INACTIVE without a session: the WM, the AO, and the presence of a fault-linked warning. -/
theorem enterActive_eq {w : Fin 64} {t : State} (off : t.sc.service = false) (inactive : t.wm.inst[w].state = .inactive) :
    enterActive w t =
      let u := takeList (setWarnState w .active (activate w t))
      if t.faultLinked w then setPresence (.warning w) true { u with freeCount := u.freeCount + 1 }
      else { u with freeCount := u.freeCount + 1 } := by
  set u := takeList (setWarnState w .active (activate w t)) with u_eq
  have only : Only [.reports, .wm, .ao] t u :=
    ((activate_only t w).mono.andThen (setWarnState_only _ _ _)).andThen (takeList_only _)
  have defs : u.wm.defs = t.wm.defs := by
    rw [u_eq, (takeList_only _).wm]
    rfl
  have linked : u.faultLinked w = t.faultLinked w := by rw [State.faultLinked, defs]; rfl
  have session : u.sc.service = false := by rw [only.service, off]
  have eq : enterActive w t = inFreeOrder
      [(u.faultLinked w && !decide (t.wm.inst[w].state = .acked), setPresence (.warning w) true),
       (decide (u.warnPriority w = .stop) && u.sc.service && u.testsInForce, stopActivation)] u := rfl
  rw [eq, linked, session, inactive]
  cases t.faultLinked w with
  | false => exact inFreeOrder_none (by simp [activeUnits]) u
  | true =>
    refine (inFreeOrder_one (u := setPresence (.warning w) true) ?_ u).trans rfl
    simp [activeUnits]

end Sys2Proof.Machine
end
section
/-! PROOFS. All the warnings asked at RUN entry (R97, R100, R110, R159). -/

namespace Sys2Proof.Machine

set_option Elab.async false

section
variable {s b t : State} {ws rest : List (Fin 64)} {w : Fin 64} {reads : WarnDef → Bool}

/-- An INACTIVE warning starts where it is qualified. -/
theorem actOn_inactive (d : WarnDef) (q : Bool) (state : t.wm.inst[w].state = .inactive) :
    actOn w d q t = if q then startWarning w d t else t := by
  unfold actOn
  rw [state]
  cases q <;> rfl

/-- Everything a warning can do when it is asked on the view of RUN entry: nothing, start to wait, or enter ACTIVE. -/
theorem askWarning_runEntry (h : s.WarnsAt ws t.wm) (fresh : w ∉ ws) (all : ∀ d, reads d = true) :
    (s.qualifiedAtEntry w = false ∧ askWarning reads (View.runEntry s.ci.supply) w t = t) ∨
    (s.activeAtEntry w = true ∧ askWarning reads (View.runEntry s.ci.supply) w t = enterActive w t) ∨
    (s.qualifiedAtEntry w = true ∧ s.activeAtEntry w = false ∧ ∃ d, s.wm.defs[w] = some d ∧
      askWarning reads (View.runEntry s.ci.supply) w t =
        setWarnState w .delaying (t.modInst w fun i => { i with delayT := some (d.delay * 100) })) := by
  obtain ⟨defs, -⟩ := h.kept
  have inst := h.waiting w fresh
  unfold askWarning
  rw [defs]
  cases def? : s.wm.defs[w] with
  | none => exact .inl ⟨by simp only [State.qualifiedAtEntry, def?], rfl⟩
  | some d =>
    rw [State.instBefore, def?] at inst
    have qualified : s.qualifiedAtEntry w = (s.trueAtEntry d.cond && decide (d.gating ≠ .moving)) := by
      simp only [State.qualifiedAtEntry, def?]
    have asks : t.wm.inst[w].qualified d (View.runEntry s.ci.supply) = s.qualifiedAtEntry w := by
      rw [inst, qualified, ← holds_standstill]
      rfl
    have state : t.wm.inst[w].state = .inactive := by rw [inst]
    dsimp only
    rw [if_pos (all d), asks, actOn_inactive d _ state]
    cases yes : s.qualifiedAtEntry w with
    | false => exact .inl ⟨rfl, rfl⟩
    | true =>
      have active : s.activeAtEntry w = decide (d.delay = 0) := by
        simp only [State.activeAtEntry, yes, Bool.true_and, def?, Option.map_some, Option.some.injEq]
      right
      rw [active]
      dsimp only [startWarning]
      by_cases zero : d.delay = 0
      · exact .inl ⟨decide_eq_true zero, if_pos zero⟩
      · exact .inr ⟨rfl, decide_eq_false zero, d, rfl, if_neg zero⟩

theorem linkedAtEntry_inactive (h : s.activeAtEntry w = false) : s.linkedAtEntry w = false := by
  rw [State.linkedAtEntry, h, Bool.false_and]

theorem State.FaultsAt.congr {u : State} (h : s.FaultsAt b ws t) (fm : u.fm = t.fm) (jc : u.jc = t.jc) :
    s.FaultsAt b ws u := by
  obtain ⟨kept, present, linked, others, young, idle, room⟩ := h
  rw [← fm] at kept present linked others young idle room
  rw [← jc] at idle
  exact ⟨kept, present, linked, others, young, idle, room⟩

/-- A warning that has entered ACTIVE hands its presence where it is fault-linked. -/
theorem State.AskedAt.presents {u : State} (sc : u.sc = b.sc) (warns : s.WarnsAt (ws ++ [w]) u.wm)
    (outputs : s.OutputsAt (ws ++ [w]) u.ao) (faults : s.FaultsAt b ws u) (fresh : w ∉ ws)
    (rests : b.fm.present (.warning w) = false ∧ b.fm.tracker (.warning w) = .rest) :
    s.AskedAt b (ws ++ [w]) (if s.linkedAtEntry w then setPresence (.warning w) true u else u) := by
  cases linked : s.linkedAtEntry w with
  | false => exact ⟨sc, warns, outputs, faults.stays linked rfl rfl⟩
  | true =>
    have only : Only faultParts u (setPresence (.warning w) true u) := setPresence_only u _ _
    exact ⟨only.sc.trans sc, only.wm ▸ warns, only.ao ▸ outputs,
      faults.hands fresh linked (by rw [sc]) rests.1 rests.2⟩

/-- One more warning asked. -/
theorem State.AskedAt.asks (h : s.AskedAt b ws t) (order : ws ++ w :: rest = List.finRange 64) (all : ∀ d, reads d = true)
    (run : b.sc.opState = .run) (off : b.sc.service = false)
    (rests : b.fm.present (.warning w) = false ∧ b.fm.tracker (.warning w) = .rest) :
    s.AskedAt b (ws ++ [w]) (askWarning reads (View.runEntry s.ci.supply) w t) := by
  obtain ⟨sc, warns, outputs, faults⟩ := h
  have fresh := next_fresh order
  rcases askWarning_runEntry warns fresh all with ⟨no, e⟩ | ⟨active, e⟩ | ⟨yes, inactive, d, def?, e⟩
  · have inactive : s.activeAtEntry w = false := by rw [State.activeAtEntry, no, Bool.false_and]
    rw [e]
    exact ⟨sc, warns.unqualified fresh no, outputs.stays inactive, faults.stays (linkedAtEntry_inactive inactive) rfl rfl⟩
  · obtain ⟨defs, -⟩ := warns.kept
    obtain ⟨-, d, def?, -⟩ := activeAtEntry_def active
    have state : t.wm.inst[w].state = .inactive := by rw [warns.waiting w fresh, State.instBefore, def?]
    have linked : t.faultLinked w = s.linkedAtEntry w := by
      simp only [State.faultLinked, defs, State.linkedAtEntry, active, def?, Bool.true_and, Option.map_some, Option.getD_some,
        Option.some.injEq, Bool.decide_eq_true]
    have next := warns.activates order active
    have wmOnly : Only [.reports, .wm] t (setWarnState w .active (activate w t)) :=
      (activate_only t w).mono.andThen (setWarnState_only _ _ _)
    rw [e, enterActive_eq (sc ▸ off) state, linked]
    generalize setWarnState w .active (activate w t) = v at next wmOnly
    have outputs : s.OutputsAt ws v.ao := wmOnly.ao ▸ outputs
    have taken := outputs.takes next (by rw [wmOnly.sc, sc, run])
    have aoOnly : Only [.ao] v (takeList v) := takeList_only v
    exact State.AskedAt.presents (u := { takeList v with freeCount := (takeList v).freeCount + 1 })
      (aoOnly.sc.trans (wmOnly.sc.trans sc)) (by rw [aoOnly.wm]; exact next) taken
      (faults.congr (aoOnly.fm.trans wmOnly.fm) (aoOnly.jc.trans wmOnly.jc)) fresh rests
  · rw [e]
    have only : Only [.reports, .wm] t
        (setWarnState w .delaying (t.modInst w fun i => { i with delayT := some (d.delay * 100) })) :=
      (modInst_only t w _).mono.andThen (setWarnState_only _ _ _)
    exact ⟨only.sc.trans sc, warns.delays fresh def? yes inactive, by rw [only.ao]; exact outputs.stays inactive,
      faults.stays (linkedAtEntry_inactive inactive) only.fm only.jc⟩

/-- All the warnings asked in turn. -/
theorem State.AskedAt.all (h : s.AskedAt b ws t) (order : ws ++ rest = List.finRange 64) (all : ∀ d, reads d = true)
    (run : b.sc.opState = .run) (off : b.sc.service = false)
    (rests : ∀ w, b.fm.present (.warning w) = false ∧ b.fm.tracker (.warning w) = .rest) :
    s.AskedAt b (List.finRange 64) (rest.foldl (fun t w => askWarning reads (View.runEntry s.ci.supply) w t) t) := by
  induction rest generalizing ws t with
  | nil =>
    rw [List.append_nil] at order
    exact order ▸ h
  | cons w rest ih => exact ih (h.asks order all run off (rests w)) (by rw [List.append_assoc]; exact order)

end

/-! ## From the blocks of RUN entry -/

/-- The FM aged. -/
def agedFaults (s : State) : State :=
  s.modFm fun f => { f with index := f.index.filter fun e => decide (s.sc.cycle - e.lastCycle < 40) }

theorem agedFaults_young (s : State) : ∀ e ∈ (agedFaults s).fm.index, e.young s.sc.cycle := fun e he => by
  have kept : decide (s.sc.cycle - e.lastCycle < 40) = true := (List.mem_filter.1 he).2
  show s.sc.cycle - e.lastCycle < 40
  exact of_decide_eq_true kept

theorem warningsRunEntry_eq {t : State} (run : t.sc.opState = .run) {v : View} (view : t.wm.view = some v) :
    warningsRunEntry t = (List.finRange 64).foldl (fun t w => askWarning (fun d => true || (true && d.readsMotion)) v w t)
      (updateConds (fun _ => true) v t) := by
  unfold warningsRunEntry evaluate
  rw [if_neg (by simp [run]), view]
  rfl

/-- The WM with its condition values on the view of RUN entry, before a warning is asked. -/
theorem warnsAt_none {s t : State}
    (wm : t.wm = { s.wm with inst := Vector.replicate 64 .rest, list := [], floor := .notice,
                             view := some (.runEntry s.ci.supply) }) :
    s.WarnsAt [] (updateConds (fun _ => true) (View.runEntry s.ci.supply) t).wm := by
  refine ⟨?_, ?_, ?_, nofun, fun w _ => ?_⟩
  · simp only [updateConds, State.modWm_wm, wm, and_self]
  · simp only [updateConds, State.modWm_wm, wm]
    exact (BitVec.add_zero _).symm
  · simp only [updateConds, State.modWm_wm, wm]
    rfl
  · have rest : t.wm.inst[w] = .rest := by
      rw [wm]
      exact Vector.getElem_replicate w.isLt
    have defs : t.wm.defs = s.wm.defs := by rw [wm]
    have inst : (updateConds (fun _ => true) (View.runEntry s.ci.supply) t).wm.inst[w] = match t.wm.defs[w] with
        | some d => { t.wm.inst[w] with cond := d.cond.value (View.runEntry s.ci.supply) t.wm.inst[w].cond }
        | none => t.wm.inst[w] := (tab_get _ w).trans (by cases t.wm.defs[w] <;> rfl)
    rw [inst, defs, State.instBefore, rest]
    cases s.wm.defs[w] with
    | none => rfl
    | some d => simp only [WarnInst.rest, value_runEntry]

theorem outputsAt_none {s : State} {a : Alert} (begun : a.Begun) (quiet : a.source = .none ∧ a.claimant = .none ∧
    a.listCopy = []) (lamps : a.used = s.ao.used ∧ a.patterns = s.ao.patterns) : s.OutputsAt [] a := by
  obtain ⟨source, claimant, copy⟩ := quiet
  exact ⟨begun, lamps, copy, claimant, fun _ => source⟩

theorem faultsAt_none {s b t : State} (fm : t.fm = b.fm) (jc : t.jc = b.jc) (young : ∀ e ∈ b.fm.index, e.young b.sc.cycle) :
    s.FaultsAt b [] t := by
  have none (src : FaultSource) : ¬ s.linkedIn [] src := fun ⟨w, mem, _⟩ => absurd mem List.not_mem_nil
  refine ⟨by rw [fm]; exact ⟨rfl, rfl⟩, fun src => by rw [fm]; simp [none], fun src h => absurd h (none src),
    fun src _ => by rw [fm], by rw [fm]; exact young, fun _ => ⟨by rw [fm], by rw [fm], jc⟩,
    fun _ => ⟨by rw [fm], by rw [fm]; exact Nat.le_refl _, fun e he _ => by rw [fm]; exact he, nofun⟩⟩

/-- The warnings after RUN entry, from blocks like those of RUN entry in all they read. -/
theorem faultsAndWarnings_asked {s b t : State} (blocks : s.RunBlocks b) (off : s.sc.service = false)
    (same : t.wm = b.wm ∧ t.ao = b.ao ∧ t.fm = b.fm ∧ t.jc = b.jc ∧ t.sc = b.sc) :
    s.AskedAt (agedFaults b) (List.finRange 64) (faultsAndWarnings t) := by
  obtain ⟨wm, ao, fm, jc, sc⟩ := same
  obtain ⟨only, aged⟩ := ageEntries_fm t
  have run : b.sc.opState = .run := by rw [blocks.sc]; rfl
  have wm' : (ageEntries t).wm = { s.wm with inst := Vector.replicate 64 .rest, list := [], floor := .notice,
                                             view := some (.runEntry s.ci.supply) } := by
    rw [only.wm, wm, blocks.wm]
  have conds : Only [.wm] _ (updateConds (fun _ => true) (View.runEntry s.ci.supply) (ageEntries t)) :=
    updateConds_only _ _ _
  have eq : faultsAndWarnings t = _ := warningsRunEntry_eq (by rw [only.sc, sc, run])
    (by rw [wm'] : (ageEntries t).wm.view = some (.runEntry s.ci.supply))
  have absent (w : Fin 64) : ¬ s.supplySource (.warning w) := by
    rintro (⟨h, -⟩ | ⟨h, -⟩) <;> exact absurd h nofun
  rw [eq]
  refine State.AskedAt.all (ws := []) ⟨conds.sc.trans (only.sc.trans sc), warnsAt_none wm', ?_, ?_⟩ rfl (fun _ => rfl) run
    (by show b.sc.service = false; rw [blocks.sc]; exact off) fun w => ⟨?_, ?_⟩
  · rw [conds.ao, only.ao, ao]
    exact outputsAt_none blocks.alerts blocks.quiet blocks.lamps
  · refine faultsAt_none ?_ (conds.jc.trans (only.jc.trans jc)) (agedFaults_young b)
    rw [conds.fm, aged, fm, sc]
    rfl
  · have present := (blocks.sources (.warning w)).1
    rw [← Bool.not_eq_true]
    exact fun on => absent w (present.1 on)
  · exact (blocks.sources (.warning w)).2.2 (absent w)

/-- Without an aged entry and a configured warning nothing is to do. -/
theorem faultsAndWarnings_idle {t : State}
    (idle : ((t.fm.index.any fun e => e.aged t.sc.cycle) || (List.finRange 64).any fun w => t.wm.defs[w].isSome) = false) :
    faultsAndWarnings t = t := by
  obtain ⟨noneAged, noDefs⟩ := Bool.or_eq_false_iff.1 idle
  have none (w : Fin 64) : t.wm.defs[w] = none := by
    rw [List.any_eq_false] at noDefs
    simpa using noDefs w (List.mem_finRange w)
  have conds (v : View) : updateConds (fun _ => true) v t = t := by
    have same : (updateConds (fun _ => true) v t).wm.inst = t.wm.inst := table_ext fun w => (tab_get _ w).trans (by rw [none w])
    show { t with wm := { t.wm with inst := (updateConds (fun _ => true) v t).wm.inst } } = t
    rw [same]
  have asks (r : WarnDef → Bool) (v : View) (w : Fin 64) : askWarning r v w t = t := by
    unfold askWarning
    rw [none w]
  rw [faultsAndWarnings, ageEntries_none noneAged, warningsRunEntry, evaluate]
  split
  · rfl
  · split
    · rw [conds]
      exact forEach_induct (fun x => x = t) _ t rfl fun w x hx => by rw [hx]; exact asks _ _ w
    · rfl

end Sys2Proof.Machine
end
section
/-! PROOFS. RUN entry as a whole (R20), and the four ways into RUN (R18, R29). -/

namespace Sys2Proof.Machine

set_option Elab.async false

/-! ## The warnings leave the gauges alone where no session is on (R185) -/

/-- What the Warning Manager's work can change outside a session. -/
abbrev quietWarnParts : List Part := [.reports, .wm, .ao, .fm, .jc, .free]

section
variable {s : State} (off : s.sc.service = false)
include off

theorem enterActive_quiet (w : Fin 64) : Only quietWarnParts s (enterActive w s) := by
  unfold enterActive
  have first : Only quietWarnParts s (takeList (setWarnState w .active (activate w s))) :=
    ((activate_only s w).mono.andThen (setWarnState_only _ _ _)).andThen (takeList_only _)
  have session : (takeList (setWarnState w .active (activate w s))).sc.service = false := by rw [first.service, off]
  refine first.trans (Only.inFreeOrder ?_)
  intro u hu t
  simp only [List.mem_cons, Prod.mk.injEq, List.not_mem_nil, or_false, session, Bool.and_false, Bool.false_and,
    Bool.true_eq_false, false_and] at hu
  rw [hu.2]
  exact (setPresence_only _ _ _).mono

theorem actOn_quiet (w : Fin 64) (d : WarnDef) (q : Bool) : Only quietWarnParts s (actOn w d q s) := by
  have leaves (st : WarnState) : Only quietWarnParts s (leaveActive w st s) :=
    (((modInst_only s _ _).mono.andThen (setWarnState_only _ _ _)).andThen (handList_only _ _ _)).andThen
      (handAbsence_only _ _ _)
  unfold actOn
  split
  · exact Only.ite (enterActive_quiet off w) ((modInst_only s _ _).mono.andThen (setWarnState_only _ _ _))
  · exact (modInst_only s _ _).mono.andThen (setWarnState_only _ _ _)
  · exact leaves _
  · exact leaves _
  · exact enterActive_quiet off w
  · exact Only.refl _ _

theorem askWarning_quiet (reads : WarnDef → Bool) (v : View) (w : Fin 64) :
    Only quietWarnParts s (askWarning reads v w s) := by
  unfold askWarning
  split
  · exact Only.ite (actOn_quiet off _ _ _) (Only.refl _ _)
  · exact Only.refl _ _

theorem evaluate_quiet (reads : Condition → Bool) (motion : Bool) : Only quietWarnParts s (evaluate reads motion s) := by
  unfold evaluate
  split
  · exact Only.refl _ _
  · split
    · rename_i v _
      exact forEach_induct (Only quietWarnParts s) _ _ (updateConds_only s _ _).mono fun w t h =>
        h.trans (askWarning_quiet (by rw [h.service, off]) _ _ w)
    · exact Only.refl _ _

theorem faultsAndWarnings_quiet : Only quietWarnParts s (faultsAndWarnings s) := by
  have aged := (ageEntries_fm s).1
  have asked : Only quietWarnParts (ageEntries s) (evaluate (fun _ => true) true (ageEntries s)) :=
    evaluate_quiet (by rw [aged.service, off]) _ _
  exact aged.mono.trans asked

end

/-! ## The free order of RUN entry (R20) -/

/-- What follows the blocks at RUN entry, in a free order. -/
def State.runReports (b : State) (drops : List (Fin 24)) : State :=
  inFreeOrder
    [(true, reportState),
     (!drops.isEmpty, reportDropped drops),
     ((List.finRange 8).any fun g => b.ge[g].record.isSome, forEach gaugeRunEntry),
     (b.dm.allSecure != b.dm.doorsClear, deriveDoorsClear),
     ((b.fm.index.any fun e => e.aged b.sc.cycle) || (List.finRange 64).any fun w => b.wm.defs[w].isSome,
       faultsAndWarnings)] b

theorem enterRun_eq (s : State) : enterRun s = s.runBlocks.runReports s.cu.dropped := by
  delta enterRun State.runReports State.runBlocks State.inputsEntered
  with_reducible rfl

/-- What the units of RUN entry's free order can change, one by one. -/
theorem runReports_units {drops : List (Fin 24)} {u : State → State}
    (hu : u = reportState ∨ u = reportDropped drops ∨ u = forEach gaugeRunEntry ∨ u = deriveDoorsClear ∨ u = faultsAndWarnings)
    {t : State} (session : t.sc.service = false) : Only [.reports, .ge, .dm, .wm, .ao, .fm, .jc, .free] t (u t) := by
  rcases hu with rfl | rfl | rfl | rfl | rfl
  · exact (reportState_only t).mono
  · exact (reportDropped_only t _).mono
  · exact Only.forEach fun g t => (gaugeRunEntry_only t g).mono
  · exact (deriveDoorsClear_only t).mono
  · exact (faultsAndWarnings_quiet session).mono

section
variable {b : State} (off : b.sc.service = false) (drops : List (Fin 24))
include off

/-- The reports of RUN entry and what comes with them change no other block. -/
theorem runReports_only : Only [.reports, .ge, .dm, .wm, .ao, .fm, .jc, .free] b (b.runReports drops) := by
  refine inFreeOrder_induct (Only [.reports, .ge, .dm, .wm, .ao, .fm, .jc, .free] b) (.free (by decide)) ?_
  intro u hu t ht
  refine ht.trans (runReports_units (drops := drops) ?_ (by rw [ht.service, off]))
  simp only [List.mem_cons, Prod.mk.injEq, List.not_mem_nil, or_false] at hu
  rcases hu with ⟨-, rfl⟩ | ⟨-, rfl⟩ | ⟨-, rfl⟩ | ⟨-, rfl⟩ | ⟨-, rfl⟩ <;> simp

/-- The gauges home. -/
theorem runReports_ge : (b.runReports drops).ge = vmap (Gauge.homes (decide (b.ci.supply = .low))) b.ge := by
  have quiet {t : State} {v : State → State}
      (hv : v = reportState ∨ v = reportDropped drops ∨ v = deriveDoorsClear ∨ v = faultsAndWarnings)
      (session : t.sc.service = false) : (v t).ge = t.ge ∧ (v t).ci = t.ci ∧ (v t).sc.service = false := by
    rcases hv with rfl | rfl | rfl | rfl
    · exact ⟨rfl, rfl, session⟩
    · have only := reportDropped_only t drops
      exact ⟨only.ge, only.ci, by rw [only.service, session]⟩
    · have only := deriveDoorsClear_only t
      exact ⟨only.ge, only.ci, by rw [only.service, session]⟩
    · have only := faultsAndWarnings_quiet session
      exact ⟨only.ge, only.ci, by rw [only.service, session]⟩
  refine (inFreeOrder_at (fun t => t.ge = b.ge ∧ t.ci = b.ci ∧ t.sc.service = false)
    (fun t => t.ge = vmap (Gauge.homes (decide (b.ci.supply = .low))) b.ge ∧ t.sc.service = false)
    [_, _] [_, _] ⟨rfl, rfl, off⟩ (fun v hv t => ?_) (fun _ t ⟨ge, ci, session⟩ => ⟨?_, ?_⟩)
    fun idle t ⟨ge, _, session⟩ => ⟨?_, session⟩).1
  · have named : v = reportState ∨ v = reportDropped drops ∨ v = deriveDoorsClear ∨ v = faultsAndWarnings := by
      simp only [List.cons_append, List.nil_append, List.mem_cons, Prod.mk.injEq, List.not_mem_nil, or_false] at hv
      rcases hv with ⟨-, rfl⟩ | ⟨-, rfl⟩ | ⟨-, rfl⟩ | ⟨-, rfl⟩ <;> simp
    refine ⟨fun ⟨ge, ci, session⟩ => ?_, fun ⟨ge, session⟩ => ?_⟩
    · obtain ⟨ge', ci', session'⟩ := quiet named session
      exact ⟨ge'.trans ge, ci'.trans ci, session'⟩
    · obtain ⟨ge', -, session'⟩ := quiet named session
      exact ⟨ge'.trans ge, session'⟩
  · rw [gaugesRunEntry_ge, ge, ci]
  · have only : Only [.reports, .ge] t (forEach gaugeRunEntry t) := Only.forEach fun g t => gaugeRunEntry_only t g
    rw [only.service, session]
  · rw [ge, homes_none idle]

/-- DOORS_CLEAR is derived. -/
theorem runReports_dm (run : b.sc.opState = .run) : (b.runReports drops).dm = { b.dm with doorsClear := b.dm.allSecure } := by
  have quiet {t : State} {v : State → State}
      (hv : v = reportState ∨ v = reportDropped drops ∨ v = forEach gaugeRunEntry ∨ v = faultsAndWarnings)
      (session : t.sc.service = false) : (v t).dm = t.dm ∧ (v t).sc = t.sc := by
    rcases hv with rfl | rfl | rfl | rfl
    · exact ⟨rfl, rfl⟩
    · exact ⟨(reportDropped_only t drops).dm, (reportDropped_only t drops).sc⟩
    · have only : Only [.reports, .ge] t (forEach gaugeRunEntry t) := Only.forEach fun g t => gaugeRunEntry_only t g
      exact ⟨only.dm, only.sc⟩
    · exact ⟨(faultsAndWarnings_quiet session).dm, (faultsAndWarnings_quiet session).sc⟩
  refine (inFreeOrder_at (fun t => t.dm = b.dm ∧ t.sc = b.sc)
    (fun t => t.dm = { b.dm with doorsClear := b.dm.allSecure } ∧ t.sc = b.sc)
    [_, _, _] [_] ⟨rfl, rfl⟩ (fun v hv t => ?_) (fun _ t ⟨dm, sc⟩ => ⟨?_, ?_⟩) fun idle t ⟨dm, sc⟩ => ⟨?_, sc⟩).1
  · have named : v = reportState ∨ v = reportDropped drops ∨ v = forEach gaugeRunEntry ∨ v = faultsAndWarnings := by
      simp only [List.cons_append, List.nil_append, List.mem_cons, Prod.mk.injEq, List.not_mem_nil, or_false] at hv
      rcases hv with ⟨-, rfl⟩ | ⟨-, rfl⟩ | ⟨-, rfl⟩ | ⟨-, rfl⟩ <;> simp
    refine ⟨fun ⟨dm, sc⟩ => ?_, fun ⟨dm, sc⟩ => ?_⟩ <;>
    · obtain ⟨dm', sc'⟩ := quiet named (sc ▸ off)
      exact ⟨dm'.trans dm, sc'.trans sc⟩
  · rw [deriveDoorsClear, setDoorsClear_dm, dm]
    simp [State.inRun, sc, run]
  · exact (deriveDoorsClear_only t).sc.trans sc
  · rw [dm]
    have same : b.dm.allSecure = b.dm.doorsClear := by simpa using idle
    rw [same]

end

/-- The warnings are evaluated. -/
theorem runReports_asked {s b : State} (blocks : s.RunBlocks b) (off : s.sc.service = false) (drops : List (Fin 24)) :
    s.AskedAt (agedFaults b) (List.finRange 64) (b.runReports drops) := by
  have quiet {t : State} {v : State → State}
      (hv : v = reportState ∨ v = reportDropped drops ∨ v = forEach gaugeRunEntry ∨ v = deriveDoorsClear) :
      (v t).wm = t.wm ∧ (v t).ao = t.ao ∧ (v t).fm = t.fm ∧ (v t).jc = t.jc ∧ (v t).sc = t.sc := by
    have only : Only [.reports, .ge, .dm] t (v t) := by
      rcases hv with rfl | rfl | rfl | rfl
      · exact (reportState_only t).mono
      · exact (reportDropped_only t drops).mono
      · exact Only.forEach fun g t => (gaugeRunEntry_only t g).mono
      · exact (deriveDoorsClear_only t).mono
    exact ⟨only.wm, only.ao, only.fm, only.jc, only.sc⟩
  refine inFreeOrder_at (fun t => t.wm = b.wm ∧ t.ao = b.ao ∧ t.fm = b.fm ∧ t.jc = b.jc ∧ t.sc = b.sc)
    (fun t => s.AskedAt (agedFaults b) (List.finRange 64) t) [_, _, _, _] [] ⟨rfl, rfl, rfl, rfl, rfl⟩ (fun v hv t => ?_)
    (fun _ t same => faultsAndWarnings_asked blocks off same) fun idle t same => ?_
  · have named : v = reportState ∨ v = reportDropped drops ∨ v = forEach gaugeRunEntry ∨ v = deriveDoorsClear := by
      simp only [List.cons_append, List.nil_append, List.mem_cons, Prod.mk.injEq, List.not_mem_nil, or_false] at hv
      rcases hv with ⟨-, rfl⟩ | ⟨-, rfl⟩ | ⟨-, rfl⟩ | ⟨-, rfl⟩ <;> simp
    obtain ⟨wm', ao', fm', jc', sc'⟩ := quiet (t := t) named
    refine ⟨fun ⟨wm, ao, fm, jc, sc⟩ => ⟨wm'.trans wm, ao'.trans ao, fm'.trans fm, jc'.trans jc, sc'.trans sc⟩,
      fun ⟨sc, warns, outputs, faults⟩ => ⟨sc'.trans sc, wm' ▸ warns, ao' ▸ outputs, faults.congr fm' jc'⟩⟩
  · obtain ⟨wm, ao, fm, jc, sc⟩ := same
    have nothing : faultsAndWarnings t = t := faultsAndWarnings_idle (by rw [wm, fm, sc]; exact idle)
    rw [← nothing]
    exact faultsAndWarnings_asked blocks off ⟨wm, ao, fm, jc, sc⟩

/-! ## RUN entry -/

/-- The fault-linked warnings among those that start are all that are fault-linked. -/
theorem linked_starts (s : State) :
    s.startsAtEntry.filter s.linkedAtEntry = (List.finRange 64).filter s.linkedAtEntry := by
  rw [State.startsAtEntry, List.filter_filter]
  refine List.filter_congr fun w _ => ?_
  cases active : s.activeAtEntry w with
  | false => simp [linkedAtEntry_inactive active]
  | true => simp

theorem linkedIn_all (s : State) (src : FaultSource) :
    s.linkedIn (List.finRange 64) src ↔ ∃ w : Fin 64, src = .warning w ∧ s.linkedAtEntry w = true := by
  simp [State.linkedIn]

/-- RUN entry settles every block (R20). -/
theorem enterRun_enters {s : State} (off : s.sc.service = false) : s.EntersRun (enterRun s) s.sc.newCycle := by
  have blocks := runBlocks_holds s
  rw [enterRun_eq]
  generalize s.runBlocks = b at blocks
  have offB : b.sc.service = false := by rw [blocks.sc]; exact off
  have run : b.sc.opState = .run := by rw [blocks.sc]; rfl
  have only := runReports_only offB s.cu.dropped
  have gauges := runReports_ge offB s.cu.dropped
  have doors := runReports_dm offB s.cu.dropped run
  obtain ⟨-, warns, outputs, faults⟩ := runReports_asked blocks off s.cu.dropped
  generalize b.runReports s.cu.dropped = t at *
  have sc : t.sc = s.sc.enterRun := only.sc.trans blocks.sc
  have ci : t.ci = s.ci.runEntry := only.ci.trans blocks.ci
  have conv := blocks.conv.congr only.cu
  have leaf (l : Fin 8) : t.dm.leaves[l] = (resetLeaves s).dm.leaves[l] := by rw [doors, blocks.dm]
  have gauge (g : Fin 8) : t.ge[g] = (s.ge[g]).runEntry.homes (decide (s.ci.supply = .low)) := by
    have supply : b.ci.supply = s.ci.supply := by rw [blocks.ci]; rfl
    rw [gauges, blocks.ge, vmap_get, vmap_get, supply]
  have begun := outputs.begun
  obtain ⟨defs, floor, view⟩ := warns.kept
  have aged : (agedFaults b).fm.index = s.fm.index.filter fun e => decide (t.sc.cycle - e.lastCycle < 40) := by
    show b.fm.index.filter _ = _
    rw [blocks.fm, only.sc]
  refine ⟨?_, ?_, ?_, fun ch => ?_, fun n => ?_, ?_, fun g => ?_, fun l on => ?_, ⟨?_, ?_, fun l c on => ?_⟩, ?_, ?_, ?_, floor,
    view, fun w => ?_, ?_, ?_, fun ch => ?_, conv.queue, ?_, ⟨fun none => ?_, fun room => ?_⟩, fun src => ?_, ?_⟩
  · rw [sc]
    exact ⟨rfl, rfl, rfl, rfl⟩
  · rw [sc]
    rfl
  · rw [sc]
    exact ⟨rfl, rfl⟩
  · have entered : t.ci.wired[ch] = s.ci.wired[ch].runEntry := by rw [ci]; exact vmap_get _ _ ch
    obtain ⟨value, reading, limited, switched⟩ := wiredRunEntry_kept s.ci.wired[ch]
    rw [entered]
    exact ⟨wiredRunEntry_cfg _, value, reading, limited, switched, fun on => wiredRunEntry_on on⟩
  · have entered : t.ci.net[n] = s.ci.net[n].runEntry := by rw [ci]; exact vmap_get _ _ n
    obtain ⟨cfg, value, limited⟩ := netRunEntry_kept s.ci.net[n]
    rw [entered]
    exact ⟨cfg, value, limited, fun on => netRunEntry_on on⟩
  · rw [ci]
    exact ⟨rfl, rfl, rfl, rfl, rfl, rfl, rfl⟩
  · rw [gauge]
    cases h : s.ge[g].record with
    | none => exact homes_unconfigured h _
    | some r =>
      have homed := homes_runEntry h (decide (s.ci.supply = .low))
      simp only [decide_eq_true_eq] at homed
      exact homed
  · rw [leaf, resetLeaves_leaf, if_pos on]
    exact ⟨rfl, rfl, fun i => Vector.getElem_replicate i.isLt, rfl, rfl, rfl, rfl, rfl, rfl⟩
  · rw [doors, blocks.dm]
    rfl
  · rw [doors, blocks.dm]
    exact resetLeaves_allSecure s
  · rw [doors, blocks.dm]
    exact resetLeaves_unknown s on
  · exact ⟨begun.bulb, begun.running, fun l => by rw [State.lampLit, begun.lit]⟩
  · exact ⟨begun.overrides, begun.noTest, begun.finished⟩
  · obtain ⟨phase, genQ, burst⟩ := begun.phase
    rw [warns.list]
    exact ⟨phase, genQ, burst, begun.floor, outputs.copy, outputs.claimant, outputs.source⟩
  · exact warns.asked w (List.mem_finRange w)
  · exact ⟨warns.counter, warns.list⟩
  · exact ⟨conv.begun.1, conv.begun.2, conv.path, conv.first, conv.waits⟩
  · have powered := conv.powered ch
    have latch := conv.latch ch
    simp only [WiredCfg.watched, Bool.and_eq_true, decide_eq_true_eq] at powered latch
    exact ⟨powered, latch⟩
  · rw [only.sc]
    exact faults.young
  · obtain ⟨index, full, jc⟩ := faults.idle fun w _ => none w
    refine ⟨index.trans aged, full.trans ?_, jc.trans blocks.kept.1⟩
    show b.fm.full = _
    rw [blocks.fm]
  · rw [linked_starts] at room
    have shorter : (agedFaults b).fm.index.length ≤ s.fm.index.length := by
      rw [aged]
      exact List.length_filter_le _ _
    obtain ⟨full, -, stays, entries⟩ := faults.room (by omega)
    refine ⟨full.trans ?_, fun e he young others => stays e ?_ ?_, fun w on => entries w (List.mem_finRange w) on⟩
    · show b.fm.full = _
      rw [blocks.fm]
    · rw [aged, List.mem_filter]
      exact ⟨he, decide_eq_true young⟩
    · rw [linkedIn_all]
      rintro ⟨w, named, on⟩
      exact absurd on (by simp [others w named])
  · obtain ⟨present, pending, rest⟩ := blocks.sources src
    have supplyOnly : s.supplySource src → ¬ s.linkedIn (List.finRange 64) src := by
      rintro (⟨rfl, -⟩ | ⟨rfl, -⟩) ⟨w, -, h, -⟩ <;> exact absurd h nofun
    refine ⟨?_, fun on => ?_, fun on => ?_, fun off none => ?_⟩
    · rw [faults.present src, linkedIn_all]
      exact or_congr_left present
    · exact (faults.others src (supplyOnly on)).trans (pending on)
    · exact faults.linked src ((linkedIn_all s src).2 on)
    · exact (faults.others src fun on => none ((linkedIn_all s src).1 on)).trans (rest off)
  · obtain ⟨scan, last⟩ := conv.kept
    obtain ⟨freeze, clear⟩ := faults.kept
    refine ⟨only.pending.trans blocks.kept.2, scan, defs, freeze.trans ?_, clear.trans ?_, last, outputs.lamps⟩
    · show b.fm.freeze = _
      rw [blocks.fm]
    · show b.fm.clearPending = _
      rw [blocks.fm]

end Sys2Proof.Machine
end

section
/-! PROOFS. What presences and confirmations of some sources leave of the others in the FM (R148 to R153, R157). -/

namespace Sys2Proof.Machine

set_option Elab.async false

/-- Work on some sources at the FM: entries of other sources are neither new nor, while there is room to the end, lost, and
their presences stand. -/
structure FaultsGrow (touched : FaultSource → Prop) (s t : State) : Prop where
  kept    : t.fm.freeze = s.fm.freeze ∧ t.fm.clearPending = s.fm.clearPending
  present : ∀ src, ¬ touched src → t.fm.present src = s.fm.present src
  others  : ∀ e ∈ t.fm.index, ¬ touched e.src → e ∈ s.fm.index
  grows   : (s.fm.index.map (·.src)).Nodup → (t.fm.index.map (·.src)).Nodup ∧ s.fm.index.length ≤ t.fm.index.length ∧
    (t.fm.index.length < 32 → ∀ e ∈ s.fm.index, ¬ touched e.src → e ∈ t.fm.index)

section
variable {touched other : FaultSource → Prop} {s t u : State}

theorem FaultsGrow.ofSame (kept : t.fm.freeze = s.fm.freeze ∧ t.fm.clearPending = s.fm.clearPending)
    (present : ∀ src, ¬ touched src → t.fm.present src = s.fm.present src) (index : t.fm.index = s.fm.index) :
    FaultsGrow touched s t where
  kept := kept
  present := present
  others e he _ := index ▸ he
  grows nodup := by
    rw [index]
    exact ⟨nodup, Nat.le_refl _, fun _ e he _ => he⟩

theorem FaultsGrow.ofFm (h : t.fm = s.fm) : FaultsGrow touched s t :=
  .ofSame (by rw [h]; exact ⟨rfl, rfl⟩) (fun _ _ => by rw [h]) (by rw [h])

theorem FaultsGrow.refl (touched : FaultSource → Prop) (s : State) : FaultsGrow touched s s := .ofFm rfl

theorem FaultsGrow.trans (h : FaultsGrow touched s t) (k : FaultsGrow touched t u) : FaultsGrow touched s u where
  kept := ⟨k.kept.1.trans h.kept.1, k.kept.2.trans h.kept.2⟩
  present src off := (k.present src off).trans (h.present src off)
  others e he off := h.others e (k.others e he off) off
  grows nodup := by
    obtain ⟨nodup', length, stays⟩ := h.grows nodup
    obtain ⟨nodup'', length', stays'⟩ := k.grows nodup'
    exact ⟨nodup'', length.trans length', fun room e he off => stays' room e (stays (by omega) e he off) off⟩

theorem FaultsGrow.mono (h : FaultsGrow touched s t) (sub : ∀ src, touched src → other src) : FaultsGrow other s t where
  kept := h.kept
  present src off := h.present src fun on => off (sub src on)
  others e he off := h.others e he fun on => off (sub _ on)
  grows nodup := by
    obtain ⟨nodup', length, stays⟩ := h.grows nodup
    exact ⟨nodup', length, fun room e he off => stays room e he fun on => off (sub _ on)⟩

end

/-! ## Confirmations (R152, R153, R157) -/

theorem map_src_replace (es : List FaultEntry) (e' : FaultEntry) :
    (es.map fun x => if x.src = e'.src then e' else x).map (·.src) = es.map (·.src) := by
  rw [List.map_map]
  refine List.map_congr_left fun x _ => ?_
  show (if x.src = e'.src then e' else x).src = x.src
  split
  · exact (‹x.src = e'.src›).symm
  · rfl

theorem createEntry_grows {src : FaultSource} {d : Option FaultSource} {s : State} (fresh : ∀ e ∈ s.fm.index, e.src ≠ src)
    (nodup : (s.fm.index.map (·.src)).Nodup) : ((createEntry src d s).fm.index.map (·.src)).Nodup ∧
      (createEntry src d s).fm.index.length = s.fm.index.length + 1 := by
  have perm : (createEntry src d s).fm.index.Perm (s.newEntry src d :: s.fm.index) := insertEntry_perm _ _
  refine ⟨(perm.map _).nodup_iff.2 ?_, perm.length_eq⟩
  rw [List.map_cons, List.nodup_cons]
  refine ⟨fun mem => ?_, nodup⟩
  obtain ⟨e, he, same⟩ := List.mem_map.1 mem
  exact fresh e he same

theorem confirmFault_grows (src : FaultSource) (s : State) : FaultsGrow (· = src) s (confirmFault src s) := by
  have confirms := confirmFault_confirms src s
  have present (x : FaultSource) : (confirmFault src s).fm.present x = s.fm.present x := by rw [confirms.frame]; rfl
  refine ⟨by rw [confirms.frame]; exact ⟨rfl, rfl⟩, fun x _ => present x, confirms.others, fun nodup => ?_⟩
  suffices grown : ((confirmFault src s).fm.index.map (·.src)).Nodup ∧
      s.fm.index.length ≤ (confirmFault src s).fm.index.length from
    ⟨grown.1, grown.2, fun room => (confirms.room (by omega)).2.2.1⟩
  rcases confirmFault_cases src s with ⟨e, found, eq⟩ | ⟨fresh, ⟨-, eq⟩ | ⟨-, v, hv, eq⟩ | ⟨-, -, eq⟩⟩
  · have named : e.src = src := by simpa using List.find?_some found
    set e' := e.repeated (s.severity src) s.sc.opSeconds s.sc.cycle with e'_eq
    have named' : e'.src = src := named
    have index : (confirmFault src s).fm.index = s.fm.index.map fun x => if x.src = e'.src then e' else x := by
      rw [eq, named']
      rfl
    rw [index, map_src_replace, List.length_map]
    exact ⟨nodup, Nat.le_refl _⟩
  · rw [eq]
    obtain ⟨nodup', length⟩ := createEntry_grows (d := none) fresh nodup
    exact ⟨nodup', by omega⟩
  · rw [eq]
    have index : (displaceEntry v.src src s).fm.index = s.fm.index.filter fun e => decide (e.src ≠ v.src) := rfl
    have shorter := length_filter_src nodup (FaultMem.victim_mem hv).1
    obtain ⟨nodup', length⟩ := createEntry_grows (s := displaceEntry v.src src s) (d := some v.src)
      (fun e he => fresh e (List.mem_filter.1 he).1) (nodup.sublist (List.filter_sublist.map _))
    rw [index] at length
    exact ⟨nodup', by omega⟩
  · rw [eq]
    exact ⟨nodup, Nat.le_refl _⟩

/-! ## Presences and events (R148 to R150) -/

theorem setTracker_grows (src : FaultSource) (k : Tracker) (s : State) (touched : FaultSource → Prop) :
    FaultsGrow touched s (setTracker src k s) := .ofSame ⟨rfl, rfl⟩ (fun _ _ => rfl) rfl

theorem withPresence_grows (src : FaultSource) (p : Bool) (s : State) :
    FaultsGrow (· = src) s (s.modFm fun f => f.withPresence src p) :=
  .ofSame ⟨rfl, rfl⟩ (fun x off => (withPresence_present s.fm src x p).trans (if_neg fun e => off e.symm)) rfl

theorem startTracker_grows (src : FaultSource) (s : State) : FaultsGrow (· = src) s (startTracker src s) := by
  unfold startTracker
  split
  · exact setTracker_grows _ _ _ _
  · exact (setTracker_grows _ _ _ _).trans (confirmFault_grows _ _)

theorem startTracker_present (src x : FaultSource) (s : State) : (startTracker src s).fm.present x = s.fm.present x := by
  unfold startTracker
  split
  · rfl
  · rw [(confirmFault_confirms src _).frame]
    rfl

theorem setPresence_grows (src : FaultSource) (p : Bool) (s : State) : FaultsGrow (· = src) s (setPresence src p s) := by
  have handed := withPresence_grows src p s
  rcases setPresence_cases src p s with ⟨-, e⟩ | ⟨-, -, -, e⟩ | ⟨-, -, -, e⟩ | ⟨-, -, e⟩ <;> rw [e]
  · exact .refl _ _
  · exact handed.trans (startTracker_grows _ _)
  · exact handed
  · exact handed.trans (setTracker_grows _ _ _ _)

theorem setPresence_present (src : FaultSource) (p : Bool) (s : State) : (setPresence src p s).fm.present src = p := by
  have handed : (s.modFm fun f => f.withPresence src p).fm.present src = p :=
    (withPresence_present s.fm src src p).trans (if_pos rfl)
  rcases setPresence_cases src p s with ⟨h, e⟩ | ⟨-, -, -, e⟩ | ⟨-, -, -, e⟩ | ⟨-, -, e⟩ <;> rw [e]
  · exact h
  · rw [startTracker_present]
    exact handed
  · exact handed
  · exact handed

theorem fireSource_grows (src : FaultSource) (s : State) : FaultsGrow (· = src) s (fireSource src s) :=
  ((setTracker_grows _ _ _ _).trans (confirmFault_grows _ _)).trans (setTracker_grows _ _ _ _)

/-- An event source that fires has an entry as of now, where there is room. -/
theorem fireSource_enters (src : FaultSource) {s : State} (room : s.fm.index.length < 32) :
    ∃ e ∈ (fireSource src s).fm.index, e.src = src ∧ s.sc.opSeconds ≤ e.lastSeen :=
  ((confirmFault_confirms src (setTracker src { state := .confirmed, timer := none } s)).room room).2.2.2

theorem handPresences_grows (ps : List (FaultSource × Bool)) (s : State) (touched : FaultSource → Prop)
    (named : ∀ p ∈ ps, touched p.1) : FaultsGrow touched s (handPresences ps s) :=
  foldl_induct (FaultsGrow touched s) _ ps s (.refl _ _) fun p hp t h =>
    h.trans ((setPresence_grows p.1 p.2 t).mono fun _ e => e ▸ named p hp)

end Sys2Proof.Machine
end
section
/-! PROOFS. Hand-overs of channels during a watch pass (R28, R43, R71, R139): who takes them, and what the leaves record. -/

namespace Sys2Proof.Machine

set_option Elab.async false

/-! ## Leaves changed one by one -/

/-- Leaves changed one by one, each by its own step alone (log 11): every leaf is changed. -/
theorem forEach_leaves {f : Fin 8 → State → State} (s : State) (h : Leaf → Leaf)
    (step : ∀ i t, t.ci = s.ci → t.sc = s.sc →
      (f i t).dm = { t.dm with leaves := vmod t.dm.leaves i h } ∧ (f i t).ci = t.ci ∧ (f i t).sc = t.sc) :
    (forEach f s).dm = { s.dm with leaves := vmap h s.dm.leaves } := by
  have fold : ∀ (is : List (Fin 8)) (t : State), t.ci = s.ci → t.sc = s.sc → is.Nodup →
      (is.foldl (fun t i => f i t) t).dm = { t.dm with leaves := (is.foldl (fun t i => f i t) t).dm.leaves } ∧
      ∀ i : Fin 8, (is.foldl (fun t i => f i t) t).dm.leaves[i] = if i ∈ is then h t.dm.leaves[i] else t.dm.leaves[i] := by
    intro is
    induction is with
    | nil => exact fun t _ _ _ => ⟨rfl, fun i => by simp⟩
    | cons x xs ih =>
      intro t hci hsc nodup
      obtain ⟨stepped, ci, sc⟩ := step x t hci hsc
      obtain ⟨notIn, nodup⟩ := List.nodup_cons.1 nodup
      obtain ⟨rest, leaves⟩ := ih (f x t) (ci.trans hci) (sc.trans hsc) nodup
      rw [List.foldl_cons]
      refine ⟨by rw [rest, stepped], fun i => ?_⟩
      rw [leaves i, stepped, vmod_get]
      by_cases hi : x = i
      · subst hi
        simp [notIn]
      · simp [hi, Ne.symm hi]
  obtain ⟨rest, leaves⟩ := fold (List.finRange 8) s rfl rfl (List.nodup_finRange 8)
  have all : (forEach f s).dm.leaves = vmap h s.dm.leaves := table_ext fun i => by
    rw [vmap_get, forEach, leaves i, if_pos (List.mem_finRange i)]
  rw [forEach] at all ⊢
  rw [rest, all]

/-! ## What a parked-watch leaf records (R139, log 30) -/

/-- A leaf of the parked watch. -/
def Leaf.watched (l : Leaf) : Bool := ((l.cfg).map (·.watched)).getD false

/-- A leaf after a hand-over of some channels in PARKED. -/
def State.recorded (s : State) (chs : List (Fin 40)) (l : Leaf) : Leaf :=
  if l.watched then
    { l with
      readings := s.leafReadings l chs
      releaseRose := l.releaseRose ||
        (decide ((s.leafReadings l chs)[slotRelease] = .active) && decide (l.readings[slotRelease] ≠ .active)) }
  else l

theorem leafReadings_congr {s t : State} (ci : t.ci = s.ci) (l : Leaf) (chs : List (Fin 40)) :
    t.leafReadings l chs = s.leafReadings l chs := by
  unfold State.leafReadings
  rw [ci]

theorem recorded_congr {s t : State} (ci : t.ci = s.ci) (chs : List (Fin 40)) : t.recorded chs = s.recorded chs := by
  funext l
  unfold State.recorded
  rw [leafReadings_congr ci]

theorem recordReadings_dm (chs : List (Fin 40)) (i : Fin 8) (t : State) :
    (recordReadings chs i t).dm = { t.dm with leaves := vmod t.dm.leaves i (t.recorded chs) } := by
  have unfolded : recordReadings chs i t = if t.dm.leaves[i].watched then
      t.modLeaf i fun l =>
        { l with
          readings := t.leafReadings t.dm.leaves[i] chs
          releaseRose := l.releaseRose || (decide ((t.leafReadings t.dm.leaves[i] chs)[slotRelease] = .active) &&
            decide (t.dm.leaves[i].readings[slotRelease] ≠ .active)) } else t := rfl
  rw [unfolded]
  split
  · rename_i watched
    refine congrArg (fun v => { t.dm with leaves := v })
      (?_ : vmod t.dm.leaves i _ = vmod t.dm.leaves i (t.recorded chs))
    exact vmod_congr (if_pos watched).symm
  · rename_i other
    rw [vmod_eq_self (f := t.recorded chs) (if_neg other)]

theorem leafReadings_unnamed {s : State} {l : Leaf} {chs : List (Fin 40)} (h : l.names chs = false) :
    s.leafReadings l chs = l.readings := by
  refine table_ext fun slot => (tab_get _ slot).trans ?_
  cases input : l.input slot with
  | none => rfl
  | some x =>
    have notHanded : x.ch ∉ chs := fun mem => by
      unfold Leaf.input at input
      split at input
      · rename_i c cfg
        split at input
        · have named : l.names chs = true := by
            simp only [Leaf.names, cfg, List.any_eq_true]
            exact ⟨slot, List.mem_finRange slot, by rw [input]; exact decide_eq_true mem⟩
          exact absurd h (by simp [named])
        · exact absurd input nofun
      · exact absurd input nofun
    exact if_neg notHanded

/-- A leaf that none of the channels concerns stands. -/
theorem recorded_unnamed {s : State} {l : Leaf} {chs : List (Fin 40)} (h : l.names chs = false) : s.recorded chs l = l := by
  unfold State.recorded
  rw [leafReadings_unnamed h]
  have rose : (decide (l.readings[slotRelease] = .active) && decide (l.readings[slotRelease] ≠ .active)) = false := by
    by_cases h : l.readings[slotRelease] = .active <;> simp only [h, decide_true, decide_false, ne_eq, not_true_eq_false,
      Bool.and_false, Bool.false_and]
  rw [rose, Bool.or_false]
  split <;> rfl

/-- The doors take a hand-over in PARKED. -/
theorem doorsTake_parked {s : State} (parked : s.sc.opState = .parked) (chs : List (Fin 40)) :
    (doorsTake chs s).dm = { s.dm with leaves := vmap (s.recorded chs) s.dm.leaves } ∧ Only [.dm] s (doorsTake chs s) := by
  have notLive {t : State} (sc : t.sc = s.sc) : ¬ t.live := by simp [State.live, sc, parked]
  have step {t : State} (i : Fin 8) (sc : t.sc = s.sc) : (if t.dm.leaves[i].names chs then
      if t.live then evaluateLeaf chs i t else if t.sc.opState = .parked then recordReadings chs i t else t else t) =
      if t.dm.leaves[i].names chs then recordReadings chs i t else t := by
    rw [if_neg (notLive sc), if_pos (show t.sc.opState = .parked by rw [sc, parked])]
  constructor
  · refine forEach_leaves s (s.recorded chs) fun i t ci sc => ?_
    rw [step i sc]
    split
    · have only := recordReadings_only t chs i
      rw [recordReadings_dm, recorded_congr ci]
      exact ⟨rfl, only.ci, only.sc⟩
    · rename_i unnamed
      rw [vmod_eq_self (recorded_unnamed (by simpa using unnamed))]
      exact ⟨rfl, rfl, rfl⟩
  · refine forEach_induct (Only [.dm] s) _ s (.refl _ s) fun i t h => h.trans ?_
    rw [step i h.sc]
    exact .ite (recordReadings_only t chs i) (.refl _ t)

/-- Where no leaf is concerned every leaf stands. -/
theorem recorded_none {s : State} {chs : List (Fin 40)}
    (h : ((List.finRange 8).any fun l => s.dm.leaves[l].names chs) = false) :
    vmap (s.recorded chs) s.dm.leaves = s.dm.leaves := by
  rw [List.any_eq_false] at h
  exact table_ext fun i => (vmap_get _ _ i).trans (recorded_unnamed (by simpa using h i (List.mem_finRange i)))

/-! ## The gauges stand (R74, R84, R85) -/

/-- Outside RUN and SHUTDOWN no gauge derives. -/
theorem deriveGauge_rests {s : State} (out : ¬ s.live) (g : Fin 8) : deriveGauge g s = s := by
  rcases deriveGauge_cases g s with ⟨-, e⟩ | ⟨r, -, live, -⟩
  · exact e
  · exact absurd live out

theorem deriveAll_rests {s : State} (out : ¬ s.live) : forEach deriveGauge s = s :=
  forEach_induct (fun t => t = s) _ s rfl fun g t h => by rw [h]; exact deriveGauge_rests out g

theorem deriveGauges_rests {s : State} (out : ¬ s.live) (chs : List (Fin 40)) : deriveGauges chs s = s :=
  forEach_induct (fun t => t = s) _ s rfl fun g t h => by
    rw [h]
    split
    · exact deriveGauge_rests out g
    · rfl

/-- A gauge without power takes no part in a change of the supply. -/
theorem gaugesTakeSupply_rests {s : State} (rest : ∀ g : Fin 8, s.ge[g].pointer = .unpowered) (before : SupplyState) :
    gaugesTakeSupply before s = s := by
  have holds : forEach holdGauge s = s := forEach_induct (fun t => t = s) _ s rfl fun g t h => by
    rw [h, holdGauge, rest g]
    rfl
  have resumes : forEach resumeGauge s = s := forEach_induct (fun t => t = s) _ s rfl fun g t h => by
    rw [h]
    unfold resumeGauge
    rw [rest g]
  unfold gaugesTakeSupply
  rw [holds, resumes]
  split
  · rfl
  · split <;> rfl

/-! ## A hand-over (R51) -/

/-- The sources a conversion can hand: WIRING, SYSTEM. -/
def conversionSource : FaultSource → Prop
  | .wiring _ | .system _ => True
  | _ => False

/-- A hand-over of channels in PARKED: the watched leaves record, the FM takes presences, reports are placed. -/
structure State.HandsParked (chs : List (Fin 40)) (s t : State) : Prop where
  only   : Only [.reports, .dm, .fm, .jc, .free] s t
  doors  : t.dm = { s.dm with leaves := vmap (s.recorded chs) s.dm.leaves }
  faults : FaultsGrow conversionSource s t

theorem changeView_rests {s : State} (out : s.sc.opState ≠ .run) (f : View → View) : changeView f s = s := if_neg out

theorem handChannels_parked {s : State} (parked : s.sc.opState = .parked) (before : Interp) (all : Bool)
    {faults : List (FaultSource × Bool)} (named : ∀ p ∈ faults, conversionSource p.1) :
    s.HandsParked (changedChannels before s.ci) (handChannels before all faults [] s) := by
  have out : s.sc.opState ≠ .run := by simp [parked]
  have notLive {t : State} (sc : t.sc = s.sc) : ¬ t.live := by simp [State.live, sc, parked]
  have unfolded : handChannels before all faults [] s = inFreeOrder
    ([(all, forEach deriveGauge),
      (!all && (List.finRange 8).any (s.gaugeReads (changedChannels before s.ci)), deriveGauges (changedChannels before s.ci)),
      ((List.finRange 8).any fun l => s.dm.leaves[l].names (changedChannels before s.ci),
        doorsTake (changedChannels before s.ci)),
      (s.warnReads (changedChannels before s.ci) && decide s.inRun, evaluateChannels (changedChannels before s.ci)),
      (s.presenceDiffers faults, handPresences faults)] ++ [])
    (viewChannels (changedChannels before s.ci) s) := rfl
  rw [unfolded, List.append_nil, viewChannels, changeView_rests out]
  generalize changedChannels before s.ci = chs
  have notRun : decide s.inRun = false := decide_eq_false out
  have doors {t : State} (sc : t.sc = s.sc) := doorsTake_parked (s := t) (sc ▸ parked) chs
  have grows (t : State) := handPresences_grows faults t conversionSource named
  refine ⟨?_, ?_, ?_⟩
  · refine inFreeOrder_induct (Only [.reports, .dm, .fm, .jc, .free] s) (.free (by decide)) fun u hu t h => h.trans ?_
    simp only [List.mem_cons, Prod.mk.injEq, List.not_mem_nil, or_false, notRun, Bool.and_false, Bool.true_eq_false,
      false_and, false_or] at hu
    rcases hu with ⟨-, rfl⟩ | ⟨-, rfl⟩ | ⟨-, rfl⟩ | ⟨-, rfl⟩
    · rw [deriveAll_rests (notLive h.sc)]
      exact .refl _ _
    · rw [deriveGauges_rests (notLive h.sc)]
      exact .refl _ _
    · exact (doors h.sc).2.mono
    · exact (handPresences_only t faults).mono
  · refine (inFreeOrder_at (fun t => t.dm = s.dm ∧ t.ci = s.ci ∧ t.sc = s.sc)
      (fun t => t.dm = { s.dm with leaves := vmap (s.recorded chs) s.dm.leaves } ∧ t.ci = s.ci ∧ t.sc = s.sc)
      [_, _] [_, _] ⟨rfl, rfl, rfl⟩ (fun v hv t => ?_) (fun _ t ⟨dm, ci, sc⟩ => ?_) fun idle t ⟨dm, ci, sc⟩ => ?_).1
    · simp only [List.cons_append, List.nil_append, List.mem_cons, Prod.mk.injEq, List.not_mem_nil, or_false, notRun,
        Bool.and_false, Bool.true_eq_false, false_and, false_or] at hv
      have kept (sc : t.sc = s.sc) : (v t).dm = t.dm ∧ (v t).ci = t.ci ∧ (v t).sc = t.sc := by
        rcases hv with ⟨-, rfl⟩ | ⟨-, rfl⟩ | ⟨-, rfl⟩
        · rw [deriveAll_rests (notLive sc)]
          exact ⟨rfl, rfl, rfl⟩
        · rw [deriveGauges_rests (notLive sc)]
          exact ⟨rfl, rfl, rfl⟩
        · have only := handPresences_only t faults
          exact ⟨only.dm, only.ci, only.sc⟩
      refine ⟨fun ⟨dm, ci, sc⟩ => ?_, fun ⟨dm, ci, sc⟩ => ?_⟩ <;>
      · obtain ⟨dm', ci', sc'⟩ := kept sc
        exact ⟨dm'.trans dm, ci'.trans ci, sc'.trans sc⟩
    · obtain ⟨taken, only⟩ := doors sc
      rw [taken, dm, recorded_congr ci]
      exact ⟨rfl, only.ci.trans ci, only.sc.trans sc⟩
    · rw [recorded_none idle]
      exact ⟨dm, ci, sc⟩
  · refine (inFreeOrder_induct (fun t => FaultsGrow conversionSource s t ∧ t.sc = s.sc) ⟨.ofFm rfl, rfl⟩
      fun u hu t ⟨h, sc⟩ => ?_).1
    simp only [List.mem_cons, Prod.mk.injEq, List.not_mem_nil, or_false, notRun, Bool.and_false, Bool.true_eq_false,
      false_and, false_or] at hu
    rcases hu with ⟨-, rfl⟩ | ⟨-, rfl⟩ | ⟨-, rfl⟩ | ⟨-, rfl⟩
    · rw [deriveAll_rests (notLive sc)]
      exact ⟨h, sc⟩
    · rw [deriveGauges_rests (notLive sc)]
      exact ⟨h, sc⟩
    · obtain ⟨-, only⟩ := doors sc
      exact ⟨h.trans (.ofFm only.fm), only.sc.trans sc⟩
    · exact ⟨h.trans (grows t), (handPresences_only t faults).sc.trans sc⟩

end Sys2Proof.Machine
end
section
/-! PROOFS. A result at the Channel Interpreter (R51 to R62): what stays of every channel, and what a result in PARKED changes. -/

namespace Sys2Proof.Machine

set_option Elab.async false

/-! ## What a result leaves of the channel table -/

/-- The CI before and after a result: the network channels, motion and every configuration stand. -/
structure Interp.Judged (a b : Interp) : Prop where
  frame : b = { a with wired := b.wired, passCount := b.passCount, judgement := b.judgement, failCount := b.failCount
                       refFault := b.refFault, supplyMv := b.supplyMv, supply := b.supply }
  cfg   : ∀ ch : Fin 24, b.wired[ch].cfg = a.wired[ch].cfg

theorem Interp.Judged.refl (a : Interp) : a.Judged a := ⟨rfl, fun _ => rfl⟩

theorem Interp.Judged.trans {a b c : Interp} (h : a.Judged b) (k : b.Judged c) : a.Judged c := by
  refine ⟨?_, fun ch => (k.cfg ch).trans (h.cfg ch)⟩
  rw [k.frame, h.frame]

theorem Interp.Judged.net {a b : Interp} (h : a.Judged b) : b.net = a.net := by rw [h.frame]

/-- Effective channels are read off the channel tables. -/
theorem eff_congr {a b : Interp} (wired : b.wired = a.wired) (net : b.net = a.net) : b.eff = a.eff := by
  cases a
  cases b
  cases wired
  cases net
  rfl

theorem changedChannels_congr {a a' b b' : Interp} (before : a'.eff = a.eff) (after : b'.eff = b.eff) :
    changedChannels a' b' = changedChannels a b := by
  unfold changedChannels
  rw [before, after]

theorem changedChannels_same {a b : Interp} (same : b.eff = a.eff) : changedChannels a b = [] := by
  rw [changedChannels_congr rfl same, changedChannels]
  simp

theorem mem_changedChannels {a b : Interp} {ch : Fin 40} : ch ∈ changedChannels a b ↔ a.eff ch ≠ b.eff ch := by
  simp [changedChannels]

/-! ## One wired channel (R53 to R57) -/

theorem takeReading_kept (w : Wired) : w.takeReading.cfg = w.cfg ∧ w.takeReading.confirmed = w.confirmed := by
  unfold Wired.takeReading
  split
  · split <;> exact ⟨rfl, rfl⟩
  · exact ⟨rfl, rfl⟩

theorem takeValue_kept (w : Wired) (c : ReadingClass) (ohms : Nat) :
    (w.takeValue c ohms).cfg = w.cfg ∧ (w.takeValue c ohms).confirmed = w.confirmed := by
  unfold Wired.takeValue
  split <;> exact ⟨rfl, rfl⟩

theorem interpret_kept (w : Wired) (r : ResultRecord) (rRef nRef : Nat) : (w.interpret r rRef nRef).cfg = w.cfg ∧
    (w.interpret r rRef nRef).confirmed =
      (w.step (r.readingClass w.cfg.thresholds (((r.ohms rRef nRef).map (·.1)).getD 0))).confirmed := by
  set c := r.readingClass w.cfg.thresholds (((r.ohms rRef nRef).map (·.1)).getD 0) with c_eq
  obtain ⟨cfg, confirmed⟩ := takeReading_kept ((w.step c).judge.takeValue c (((r.ohms rRef nRef).map (·.1)).getD 0))
  obtain ⟨cfg', confirmed'⟩ := takeValue_kept (w.step c).judge c (((r.ohms rRef nRef).map (·.1)).getD 0)
  exact ⟨cfg.trans cfg', confirmed.trans confirmed'⟩

/-- The class is in the band table of the channel. -/
def WiredCfg.holds (c : WiredCfg) (k : Option ReadingClass) : Prop := ∀ i, k = some (.band i) → i ≤ c.thresholds.length

theorem readingClass_holds (r : ResultRecord) (c : WiredCfg) (ohms : Nat) :
    c.holds (some (r.readingClass c.thresholds ohms)) := by
  intro i h
  unfold ResultRecord.readingClass at h
  split at h
  · exact absurd h nofun
  · split at h
    · split at h <;> exact absurd h nofun
    · injection h with h
      injection h with h
      exact h ▸ List.length_filter_le _ _

theorem step_holds {w : Wired} {c : ReadingClass} (before : w.cfg.holds w.confirmed) (class? : w.cfg.holds (some c)) :
    w.cfg.holds (w.step c).confirmed := by
  unfold Wired.step
  dsimp only
  split
  · split
    · exact class?
    · exact before
  · split
    · exact class?
    · exact before

/-- An interpreted result confirms a class of the band table, or keeps the class confirmed. -/
theorem interpret_holds {w : Wired} (before : w.cfg.holds w.confirmed) (r : ResultRecord) (rRef nRef : Nat) :
    w.cfg.holds (w.interpret r rRef nRef).confirmed := by
  rw [(interpret_kept w r rRef nRef).2]
  exact step_holds before (readingClass_holds r w.cfg _)

/-! ## The channel table after a result -/

theorem mapWired_judged (c : Interp) (on : Fin 24 → Bool) {f : Wired → Wired} (cfg : ∀ w, (f w).cfg = w.cfg) :
    c.Judged (c.mapWired on f) := by
  refine ⟨rfl, fun ch => ?_⟩
  rw [Interp.mapWired_get]
  split
  · rfl
  · exact cfg _

theorem vmod_judged {c : Interp} {ch : Fin 24} {f : Wired → Wired} (cfg : (f c.wired[ch]).cfg = c.wired[ch].cfg) :
    c.Judged { c with wired := vmod c.wired ch f } := by
  refine ⟨rfl, fun x => ?_⟩
  rw [vmod_get]
  split
  · rename_i same
    rw [cfg, same]
  · rfl

theorem switchPrimary_judged (p : Fin 24) (s : State) : s.ci.Judged (switchPrimary p s).ci ∧
    ∀ ch : Fin 24, (switchPrimary p s).ci.wired[ch].confirmed = s.ci.wired[ch].confirmed := by
  rcases switchPrimary_cases p s with ⟨q, -, -, -, -, e⟩ | ⟨-, e⟩
  · rw [e]
    refine ⟨vmod_judged rfl, fun ch => ?_⟩
    rw [report_ci, State.modWired_ci]
    show (vmod s.ci.wired p fun w => { w with switched := true })[ch].confirmed = _
    rw [vmod_get]
    split
    · rename_i same
      rw [← same]
    · rfl
  · rw [e]
    exact ⟨.refl _, fun _ => rfl⟩

theorem switchAround_judged (ch : Fin 24) (s : State) : s.ci.Judged (switchAround ch s).ci ∧
    ∀ x : Fin 24, (switchAround ch s).ci.wired[x].confirmed = s.ci.wired[x].confirmed := by
  obtain ⟨judged, confirmed⟩ := switchPrimary_judged ch s
  unfold switchAround
  dsimp only
  split
  · rename_i p _
    obtain ⟨judged', confirmed'⟩ := switchPrimary_judged p (switchPrimary ch s)
    exact ⟨judged.trans judged', fun x => (confirmed' x).trans (confirmed x)⟩
  · exact ⟨judged, confirmed⟩

end Sys2Proof.Machine
end
section
/-! PROOFS. A result at the Channel Interpreter: the ways it goes, and what it leaves in PARKED. -/

namespace Sys2Proof.Machine

set_option Elab.async false

/-- The ways of a result: the channel table moves, and no consumer sees a change; or the changed channels are handed on with
presences; or a changed supply state is. -/
inductive State.Judges (s : State) : State → Prop where
  | quiet {x : State} (only : Only [.reports, .ci] s x) (ci : s.ci.Judged x.ci) (same : x.ci.eff = s.ci.eff) : s.Judges x
  | hands {x : State} (before : Interp) (all : Bool) (faults : List (FaultSource × Bool))
      (only : Only [.reports, .ci] s x) (ci : s.ci.Judged x.ci) (same : before.eff = s.ci.eff)
      (named : ∀ p ∈ faults, conversionSource p.1) : s.Judges (handChannels before all faults [] x)
  | supplies {x : State} (flag : Bool) (before : SupplyState) (low high : Bool) (only : Only [.reports, .ci] s x)
      (ci : s.ci.Judged x.ci) (same : x.ci.eff = s.ci.eff) (opState : x.sc.opState = s.sc.opState) :
      s.Judges (inFreeOrder [(flag, gaugesTakeSupply before), (decide s.inRun, handSupplyToWm),
        (true, handPresences [(.system 1, low), (.system 2, high)])] x)

theorem judged_modCi {s : State} {f : Interp → Interp} (ci : s.ci.Judged (f s.ci)) :
    Only [.reports, .ci] s (s.modCi f) ∧ s.ci.Judged (s.modCi f).ci := ⟨(modCi_only s f).mono, ci⟩

/-- What goes before a result's own way, where no consumer sees it. -/
theorem State.Judges.after {s x t : State} (h : x.Judges t) (only : Only [.reports, .ci] s x) (ci : s.ci.Judged x.ci)
    (same : x.ci.eff = s.ci.eff) : s.Judges t := by
  cases h with
  | quiet only' ci' same' => exact .quiet (only.trans only') (ci.trans ci') (same'.trans same)
  | hands before all faults only' ci' same' named =>
    exact .hands before all faults (only.trans only') (ci.trans ci') (same'.trans same) named
  | supplies flag before low high only' ci' same' opState =>
    have run : decide x.inRun = decide s.inRun := by simp only [State.inRun, only.opState]
    rw [run]
    exact .supplies flag before low high (only.trans only') (ci.trans ci') (same'.trans same) (opState.trans only.opState)

/-! ## The three kinds of results -/

theorem wiredResult_judges (ch : Fin 24) (r : ResultRecord) (s : State) : s.Judges (wiredResult ch r s) := by
  unfold wiredResult
  split
  · dsimp only
    set w := s.ci.wired[ch].interpret r s.ci.rRef (s.ci.passCount.getD 0) with w_eq
    have moved : Only [.reports, .ci] s (reportWired ch s.ci.wired[ch] w (s.modWired ch fun _ => w)) :=
      (modWired_only s ch _).mono.andThen (reportWired_only _ _ _ _)
    have ci : (reportWired ch s.ci.wired[ch] w (s.modWired ch fun _ => w)).ci = { s.ci with wired := vmod s.ci.wired ch fun _ => w } :=
      (reportWired_only _ _ _ _).ci
    refine .hands s.ci false _ (moved.andThen (switchAround_only _ ch)) ?_ rfl fun p hp => ?_
    · refine Interp.Judged.trans ?_ (switchAround_judged ch _).1
      rw [ci]
      exact vmod_judged (interpret_kept _ _ _ _).1
    · rw [List.mem_singleton.1 hp]
      trivial
  · exact .quiet (.refl _ _) (.refl _) rfl

theorem wiringPresences_named (c : Interp) (p : Bool) :
    ∀ x ∈ c.wiringPresences ++ [(FaultSource.system 0, p)], conversionSource x.1 := by
  intro x hx
  rcases List.mem_append.1 hx with hx | hx
  · obtain ⟨ch, -, rfl⟩ := List.mem_map.1 hx
    trivial
  · rw [List.mem_singleton.1 hx]
    trivial

theorem referenceGood_judges (count : Nat) (s : State) : s.Judges (referenceGood count s) := by
  unfold referenceGood
  split
  · refine .hands s.ci true _ ((modCi_only s _).mono.andThen (report_only _ _ _ _)) ?_ rfl (wiringPresences_named _ _)
    exact (mapWired_judged s.ci s.judges (f := Wired.restart) fun _ => rfl).trans ⟨rfl, fun _ => rfl⟩
  · split
    · exact .quiet ((modCi_only s _).mono.andThen (report_only _ _ _ _)) ⟨rfl, fun _ => rfl⟩ (eff_congr rfl rfl)
    · exact .quiet (.refl _ _) (.refl _) rfl

theorem declareReferenceFault_judges (count : Nat) (s : State) : s.Judges (declareReferenceFault count s) := by
  refine .hands s.ci true _ ((modCi_only s _).mono.andThen (report_only _ _ _ _)) ?_ rfl (wiringPresences_named _ _)
  exact (mapWired_judged s.ci s.judges (f := fun w => { w with status := .fault, wiring := .undetermined })
    fun _ => rfl).trans ⟨rfl, fun _ => rfl⟩

theorem referenceFailed_judges (count : Nat) (s : State) : s.Judges (referenceFailed count s) := by
  unfold referenceFailed
  have reported : Only [.reports] s (if s.ci.failCount = 0 then report .referenceFailed 0 (val count) s else s) :=
    .ite (report_only s _ _ _) (.refl _ _)
  have opened : (if s.ci.failCount = 0 then report .referenceFailed 0 (val count) s else s).ci = s.ci := reported.ci
  dsimp only
  generalize (if s.ci.failCount = 0 then report .referenceFailed 0 (val count) s else s) = y at reported opened
  refine .hands s.ci false [] (reported.mono.andThen (modCi_only y _)) ?_ rfl nofun
  rw [State.modCi_ci, opened]
  refine (mapWired_judged s.ci y.judges (f := fun w => if w.status = .valid then { w with status := .held } else w)
    fun w => ?_).trans ⟨rfl, fun _ => rfl⟩
  split <;> rfl

theorem referenceResult_judges (r : ResultRecord) (s : State) : s.Judges (referenceResult r s) := by
  unfold referenceResult
  dsimp only
  set x := s.modCi fun c =>
    { c with passCount := some r.count
             judgement := some (if decide (s.ci.inWindow r.count) && !r.saturated then .good else .failed) } with x_eq
  have only : Only [.reports, .ci] s x := (modCi_only s _).mono
  have ci : s.ci.Judged x.ci := ⟨rfl, fun _ => rfl⟩
  have same : x.ci.eff = s.ci.eff := eff_congr rfl rfl
  split
  · exact (referenceGood_judges _ x).after only ci same
  · split
    · exact (referenceFailed_judges _ x).after only ci same
    · split
      · exact .quiet only ci same
      · exact (declareReferenceFault_judges _ x).after only ci same

theorem supplyResult_judges (r : ResultRecord) (s : State) : s.Judges (supplyResult r s) := by
  unfold supplyResult
  dsimp only
  have ci (after : SupplyState) : s.ci.Judged { s.ci with supplyMv := some (min 60000 (r.count * 4)), supply := after } :=
    ⟨rfl, fun _ => rfl⟩
  split
  · exact .quiet (modCi_only s _).mono (ci _) (eff_congr rfl rfl)
  · exact .supplies _ _ _ _ ((modCi_only s _).mono.andThen (report_only _ _ _ _)) (ci _) (eff_congr rfl rfl) rfl

theorem takeResult_judges (r : ResultRecord) (s : State) : s.Judges (takeResult r s) := by
  unfold takeResult
  split
  · exact referenceResult_judges r s
  · exact supplyResult_judges r s
  · exact wiredResult_judges _ r s

/-! ## What a result leaves -/

theorem gaugesTakeSupply_ci (before : SupplyState) (s : State) : (gaugesTakeSupply before s).ci = s.ci :=
  (gaugesTakeSupply_only s before).ci

theorem State.Judges.ci {s t : State} (h : s.Judges t) : s.ci.Judged t.ci := by
  cases h with
  | quiet only ci same => exact ci
  | hands before all faults only ci same named =>
    rw [(handChannels_nil_only _ before all faults).ci]
    exact ci
  | supplies flag before low high only ci same opState =>
    refine inFreeOrder_induct (fun t => s.ci.Judged t.ci) ci fun u hu t ht => ?_
    simp only [List.mem_cons, Prod.mk.injEq, List.not_mem_nil, or_false] at hu
    rcases hu with ⟨-, rfl⟩ | ⟨-, rfl⟩ | ⟨-, rfl⟩
    · rw [gaugesTakeSupply_ci]
      exact ht
    · rw [(handSupplyToWm_only t).ci]
      exact ht
    · rw [(handPresences_only t _).ci]
      exact ht

/-- A result in PARKED, gauges without power: the channel table moves, the parked-watch leaves record what has changed, the FM
takes presences of the channels and the system, and reports are placed. -/
structure State.TakesParked (s t : State) : Prop where
  only   : Only [.reports, .ci, .dm, .fm, .jc, .free] s t
  ci     : s.ci.Judged t.ci
  doors  : t.dm = { s.dm with leaves := vmap (t.recorded (changedChannels s.ci t.ci)) s.dm.leaves }
  faults : FaultsGrow conversionSource s t

theorem recorded_nil (s : State) (l : Leaf) : s.recorded [] l = l := by
  refine recorded_unnamed ?_
  unfold Leaf.names
  split
  · refine List.any_eq_false.2 fun slot _ => ?_
    split <;> simp
  · rfl

/-- Where no consumer sees a change no leaf records any. -/
theorem unrecorded {s t : State} (same : t.ci.eff = s.ci.eff) (dm : t.dm = s.dm) :
    t.dm = { s.dm with leaves := vmap (t.recorded (changedChannels s.ci t.ci)) s.dm.leaves } := by
  have stands : vmap (t.recorded []) s.dm.leaves = s.dm.leaves := table_ext fun i => by rw [vmap_get, recorded_nil]
  rw [changedChannels_same same, stands, dm]

theorem State.Judges.parked {s t : State} (h : s.Judges t) (parked : s.sc.opState = .parked)
    (rest : ∀ g : Fin 8, s.ge[g].pointer = .unpowered) : s.TakesParked t := by
  have judged := h.ci
  cases h with
  | quiet only ci same => exact ⟨only.mono, ci, unrecorded same only.dm, .ofFm only.fm⟩
  | @hands x before all faults only ci same named =>
    have hands := handChannels_parked (s := x) (by rw [only.opState, parked]) before all named
    have sameCi := hands.only.ci
    refine ⟨only.mono.trans hands.only.mono, judged, ?_, FaultsGrow.trans (.ofFm only.fm) hands.faults⟩
    rw [hands.doors, only.dm, sameCi, recorded_congr sameCi, changedChannels_congr same rfl]
  | @supplies x flag before low high only ci same opState =>
    have out : decide s.inRun = false := by simp [State.inRun, parked]
    have units {u : State → State} (hu : (true, u) ∈ [(flag, gaugesTakeSupply before), (decide s.inRun, handSupplyToWm),
        (true, handPresences [(.system 1, low), (.system 2, high)])]) {y : State} (ge : y.ge = s.ge) :
        Only faultParts y (u y) ∧ FaultsGrow conversionSource y (u y) := by
      simp only [List.mem_cons, Prod.mk.injEq, List.not_mem_nil, or_false, out, Bool.true_eq_false, false_and,
        false_or] at hu
      rcases hu with ⟨-, rfl⟩ | ⟨-, rfl⟩
      · rw [gaugesTakeSupply_rests (fun g => by rw [ge, rest g]) before]
        exact ⟨.refl _ _, .refl _ _⟩
      · refine ⟨handPresences_only y _, handPresences_grows _ y _ fun p hp => ?_⟩
        simp only [List.mem_cons, List.not_mem_nil, or_false] at hp
        rcases hp with rfl | rfl <;> trivial
    have all := inFreeOrder_induct
      (fun y => Only [.reports, .fm, .jc, .free] x y ∧ FaultsGrow conversionSource x y)
      (units := [(flag, gaugesTakeSupply before), (decide s.inRun, handSupplyToWm),
        (true, handPresences [(.system 1, low), (.system 2, high)])]) (s := x) ⟨.free (by decide), .ofFm rfl⟩
      fun u hu y ⟨onlyY, grows⟩ => by
        obtain ⟨onlyU, growsU⟩ := units hu (onlyY.ge.trans only.ge)
        exact ⟨onlyY.trans onlyU.mono, grows.trans growsU⟩
    obtain ⟨onlyT, grows⟩ := all
    exact ⟨only.mono.trans onlyT.mono, judged, unrecorded (by rw [onlyT.ci]; exact same) (onlyT.dm.trans only.dm),
      FaultsGrow.trans (.ofFm only.fm) grows⟩

/-! ## The confirmed class after a wired result -/

theorem wiredResult_holds (ch : Fin 24) (r : ResultRecord) {s : State}
    (before : s.ci.wired[ch].cfg.holds s.ci.wired[ch].confirmed) :
    s.ci.wired[ch].cfg.holds (wiredResult ch r s).ci.wired[ch].confirmed := by
  by_cases interprets : s.ci.interprets ch
  · set w := s.ci.wired[ch].interpret r s.ci.rRef (s.ci.passCount.getD 0) with w_eq
    set x := reportWired ch s.ci.wired[ch] w (s.modWired ch fun _ => w) with x_eq
    have result : wiredResult ch r s = handChannels s.ci false [(.wiring ch, w.wiring.present)] [] (switchAround ch x) :=
      if_pos interprets
    have wired : x.ci.wired = vmod s.ci.wired ch fun _ => w := congrArg Interp.wired (reportWired_only _ ch _ w).ci
    have ci : (wiredResult ch r s).ci = (switchAround ch x).ci := by rw [result, (handChannels_nil_only _ _ _ _).ci]
    rw [ci, (switchAround_judged ch x).2 ch, wired, vmod_self]
    exact interpret_holds before _ _ _
  · rw [wiredResult, if_neg interprets]
    exact before

end Sys2Proof.Machine
end
section
/-! PROOFS. The completion of a conversion (R32, R35, R40), in RUN and SHUTDOWN and in PARKED. -/

namespace Sys2Proof.Machine

set_option Elab.async false

/-! ## The result, taken and reported -/

/-- A result taken while CONVERTED is placed in a free order (R9, R32). -/
def State.takes (s : State) (c : Conversion) (r : ResultRecord) : State :=
  inFreeOrder [(true, takeResult r), (c.hostMark, reportConverted r)] s

/-- The conversion is over and its record stored, before the result is taken. -/
def State.stored (s : State) (r : ResultRecord) : State := s.modCu fun u => { u.store r with inFlight := none }

theorem completeConversion_eq (c : Conversion) (r : ResultRecord) (s : State) : completeConversion c r s =
    let t := latchWorkOf r.target ((s.stored r).takes c r)
    t.modCu (·.advance c.origin t.passList.length) := rfl

section
variable {s t : State} {c : Conversion} {r : ResultRecord}

theorem takes_only : Only interpParts s (s.takes c r) := by
  refine Only.inFreeOrder fun u hu t => ?_
  simp only [List.mem_cons, Prod.mk.injEq, List.not_mem_nil, or_false] at hu
  rcases hu with ⟨-, rfl⟩ | ⟨-, rfl⟩
  · exact takeResult_only t r
  · exact (reportConverted_only t r).mono

theorem takes_judged : s.ci.Judged (s.takes c r).ci := by
  refine inFreeOrder_induct (fun t => s.ci.Judged t.ci) (.refl _) fun u hu t h => ?_
  simp only [List.mem_cons, Prod.mk.injEq, List.not_mem_nil, or_false] at hu
  rcases hu with ⟨-, rfl⟩ | ⟨-, rfl⟩
  · exact h.trans (takeResult_judges r t).ci
  · rw [(reportConverted_only t r).ci]
    exact h

/-- The confirmed class of the converted channel stays in its band table. -/
theorem takes_holds {ch : Fin 24} (target : r.target = .wired ch)
    (before : s.ci.wired[ch].cfg.holds s.ci.wired[ch].confirmed) :
    s.ci.wired[ch].cfg.holds (s.takes c r).ci.wired[ch].confirmed := by
  have wired (t : State) : takeResult r t = wiredResult ch r t := by rw [takeResult, target]
  refine inFreeOrder_at (fun t => t.ci = s.ci) (fun t => s.ci.wired[ch].cfg.holds t.ci.wired[ch].confirmed) [] [_] rfl
    (fun v hv t => ?_) (fun _ t ci => ?_) nofun
  · simp only [List.nil_append, List.mem_cons, Prod.mk.injEq, List.not_mem_nil, or_false] at hv
    rw [hv.2, (reportConverted_only t r).ci]
    exact ⟨id, id⟩
  · rw [wired]
    have held := wiredResult_holds ch r (s := t) (by rw [ci]; exact before)
    rwa [ci] at held

/-! ### In PARKED -/

/-- Reports placed before and after a result in PARKED do not matter. -/
theorem State.TakesParked.congr {x y : State} (h : x.TakesParked y) (before : Only [.reports, .free] s x)
    (after : Only [.reports, .free] y t) : s.TakesParked t := by
  obtain ⟨only, ci, doors, faults⟩ := h
  refine ⟨(before.mono.trans only).trans after.mono, ?_, ?_, ?_⟩
  · rw [after.ci, ← before.ci]
    exact ci
  · rw [after.dm, doors, before.dm, before.ci, after.ci, recorded_congr after.ci]
  · exact (FaultsGrow.trans (.ofFm before.fm) faults).trans (.ofFm after.fm)

theorem takes_parked (parked : s.sc.opState = .parked) (rest : ∀ g : Fin 8, s.ge[g].pointer = .unpowered) :
    s.TakesParked (s.takes c r) := by
  refine inFreeOrder_at (fun t => Only [.reports, .free] s t) (fun t => s.TakesParked t) [] [_] (.free (by decide))
    (fun v hv t => ?_) (fun _ t before => ?_) nofun
  · simp only [List.nil_append, List.mem_cons, Prod.mk.injEq, List.not_mem_nil, or_false] at hv
    rw [hv.2]
    have reported := reportConverted_only t r
    exact ⟨fun h => h.andThen reported, fun h => h.congr (.refl _ _) reported.mono⟩
  · have taken := (takeResult_judges r t).parked (by rw [before.opState, parked]) fun g => by rw [before.ge, rest g]
    exact taken.congr before (.refl _ _)

end

/-! ## Latch work (R40) -/

theorem latchWorkOf_armed {s : State} {t : Target} (armed : ∀ ch, t = .wired ch → s.cu.latch[ch] = .armed) :
    latchWorkOf t s = s := by
  unfold latchWorkOf
  split
  · rename_i ch
    exact if_neg (by rw [armed ch rfl]; decide)
  · rfl

/-- Outside RUN and SHUTDOWN the latch work re-arms the latch of the converted channel, or does nothing. -/
theorem latchWorkOf_parked {s : State} (out : ¬ s.live) (t : Target) : (latchWorkOf t s).cu =
      { s.cu with latch := (latchWorkOf t s).cu.latch } ∧
    (∀ ch, t ≠ .wired ch ∨ s.cu.latch[ch] = .armed → (latchWorkOf t s).cu.latch[ch] = s.cu.latch[ch]) ∧
    ∀ ch, t = .wired ch → s.cu.latch[ch] = .set →
      ((latchWorkOf t s).cu.latch[ch] = .armed ↔ s.rearms ch = true) := by
  unfold latchWorkOf
  split
  · rename_i x
    by_cases set : s.cu.latch[x] = .set
    · have work : latchWork x s = if s.rearms x then s.modCu fun u => { u with latch := vset u.latch x .armed } else s := by
        rw [latchWork, if_pos set, if_neg out]
      rw [work]
      cases rearms : s.rearms x with
      | true =>
        refine ⟨rfl, fun ch h => ?_, fun ch h _ => ?_⟩
        · show (vset s.cu.latch x .armed)[ch] = _
          rw [vset_get]
          split
          · rename_i same
            subst same
            exact (h.resolve_left fun n => n rfl).symm
          · rfl
        · injection h with h
          subst h
          show (vset s.cu.latch x .armed)[x] = _ ↔ _
          rw [vset_self, rearms]
          exact iff_of_true rfl rfl
      | false =>
        refine ⟨rfl, fun ch _ => rfl, fun ch h _ => ?_⟩
        injection h with h
        subst h
        rw [rearms]
        simp only [Bool.false_eq_true, if_false, iff_false]
        exact fun armed => absurd (set.symm.trans armed) (by decide)
    · have work : latchWork x s = s := if_neg set
      rw [work]
      refine ⟨rfl, fun ch _ => rfl, fun ch h isSet => ?_⟩
      injection h with h
      subst h
      exact absurd isSet set
  · rename_i other
    exact ⟨rfl, fun _ _ => rfl, fun ch h => absurd h (other ch)⟩

/-- A confirmed class of the band table lies on one side of the watch threshold at most, where its thresholds ascend: re-arming
asks for the side of the comparator (R40). -/
theorem side_iff {cfg : WiredCfg} (sorted : cfg.thresholds.Pairwise (· < ·)) {k : ReadingClass} (held : cfg.holds (some k))
    (side : Comparator) : cfg.side k = some side ↔ cfg.liesOn k side := by
  cases k with
  | saturated => simp [WiredCfg.side, WiredCfg.liesOn, eq_comm]
  | stallLow => simp [WiredCfg.side, WiredCfg.liesOn, eq_comm]
  | stallMid => simp [WiredCfg.side, WiredCfg.liesOn, eq_comm]
  | stallHigh => simp [WiredCfg.side, WiredCfg.liesOn, eq_comm]
  | band i =>
    have inTable : i ≤ cfg.thresholds.length := held i rfl
    have above : (0 < i ∧ cfg.watchThr ≤ cfg.thresholds.getD (i - 1) 0) ↔
        ∃ j lower, i = j + 1 ∧ cfg.thresholds[j]? = some lower ∧ cfg.watchThr ≤ lower := by
      constructor
      · rintro ⟨pos, le⟩
        have lt : i - 1 < cfg.thresholds.length := by omega
        refine ⟨i - 1, cfg.thresholds[i - 1], by omega, List.getElem?_eq_getElem lt, ?_⟩
        rwa [List.getD_eq_getElem _ _ lt] at le
      · rintro ⟨j, lower, rfl, hj, le⟩
        refine ⟨Nat.succ_pos j, ?_⟩
        rw [Nat.add_sub_cancel, List.getD_eq_getElem?_getD, hj]
        exact le
    have exclusive {upper : Nat} (hu : cfg.thresholds[i]? = some upper) (le : upper ≤ cfg.watchThr) :
        ¬ ∃ j lower, i = j + 1 ∧ cfg.thresholds[j]? = some lower ∧ cfg.watchThr ≤ lower := by
      rintro ⟨j, lower, rfl, hj, ge⟩
      obtain ⟨hi, rfl⟩ := List.getElem?_eq_some_iff.1 hu
      obtain ⟨hj', rfl⟩ := List.getElem?_eq_some_iff.1 hj
      have := List.pairwise_iff_getElem.1 sorted j (j + 1) hj' hi (Nat.lt_succ_self j)
      omega
    have sideIf : (if 0 < i ∧ cfg.watchThr ≤ cfg.thresholds.getD (i - 1) 0 then some Comparator.above else none) = some side ↔
        side = .above ∧ ∃ j lower, i = j + 1 ∧ cfg.thresholds[j]? = some lower ∧ cfg.watchThr ≤ lower := by
      split
      · rename_i h
        rw [Option.some.injEq, eq_comm, and_iff_left (above.1 h)]
      · rename_i h
        exact iff_of_false nofun fun lies => h (above.2 lies.2)
    unfold WiredCfg.side WiredCfg.liesOn
    cases hu : cfg.thresholds[i]? with
    | none => simpa only [hu, reduceCtorEq, false_and, exists_false, and_false, false_or] using sideIf
    | some upper =>
      simp only [hu, Option.some.injEq, exists_eq_left']
      by_cases le : upper ≤ cfg.watchThr
      · rw [if_pos le, Option.some.injEq, eq_comm, and_iff_left le, or_iff_left fun lies => exclusive hu le lies.2]
      · rw [if_neg le, or_iff_right fun lies => le lies.2]
        exact sideIf

theorem rearms_iff {s : State} {ch : Fin 24} (sorted : s.ci.wired[ch].cfg.thresholds.Pairwise (· < ·))
    (held : s.ci.wired[ch].cfg.holds s.ci.wired[ch].confirmed) : s.rearms ch = true ↔
      ∃ k, s.ci.wired[ch].confirmed = some k ∧ s.ci.wired[ch].cfg.liesOn k s.cu.comparator[ch] := by
  unfold State.rearms
  dsimp only
  cases confirmed : s.ci.wired[ch].confirmed with
  | none => simp
  | some k =>
    rw [confirmed] at held
    have sides := side_iff sorted held s.cu.comparator[ch]
    simp only [Option.bind_some, Option.some.injEq, exists_eq_left', ← sides]
    cases s.ci.wired[ch].cfg.side k <;> simp

end Sys2Proof.Machine
end
section
/-! PROOFS. Conversions in RUN and SHUTDOWN (R30, R32, R35, R42). -/

namespace Sys2Proof.Machine

set_option Elab.async false

/-! ## The conversion that starts, and the record of one that ends (R30 to R34, R43) -/

section
variable {s t : State}

theorem startConversion_eq (target : Target) (o : Origin) (host : Bool) (spent : Nat) (s : State) :
    startConversion target o host spent s =
      { s with cu := { s.cu with inFlight := some (s.begun target o host), elapsedQ := spent } } := by
  cases target <;> rfl

theorem elementTarget_eq (s : State) (p : PassElement) : s.elementTarget p = s.passTarget p := by cases p <;> rfl

theorem startElement_eq (spent : Nat) (s : State) : startElement spent s =
    { s with cu := { s.cu with inFlight := some (s.begun (s.passTarget s.cu.pos) .pass false), elapsedQ := spent } } := by
  rw [startElement, startConversion_eq, elementTarget_eq]

theorem next_eq_following (n : Nat) (p : PassElement) : p.next n = p.following n := by
  cases p with
  | reference => rfl
  | supply =>
    show (if 0 < n then PassElement.entry 0 else .reference) = if n = 0 then .reference else .entry 0
    split
    · exact (if_neg (by omega)).symm
    · exact (if_pos (by omega)).symm
  | entry i =>
    show (if i + 1 < n then PassElement.entry (i + 1) else .reference) = if n ≤ i + 1 then .reference else .entry (i + 1)
    split
    · exact (if_neg (by omega)).symm
    · exact (if_pos (by omega)).symm

theorem result_eq_record (c : Conversion) (periods pin bias : Nat) : c.result periods pin bias = c.record periods pin bias := by
  rw [Conversion.result, Conversion.record, Nat.min_comm]
  rfl

theorem begun_congr (cfg : ∀ ch : Fin 24, t.ci.wired[ch].cfg = s.ci.wired[ch].cfg) (target : Target) (o : Origin) (host : Bool) :
    t.begun target o host = s.begun target o host := by
  unfold State.begun
  cases target <;> simp only [cfg]

theorem passTarget_congr (opState : t.sc.opState = s.sc.opState) (watchSet : t.sc.watchSet = s.sc.watchSet)
    (scan : t.cu.scan = s.cu.scan) (p : PassElement) : t.passTarget p = s.passTarget p := by
  unfold State.passTarget
  rw [opState, watchSet, scan]

theorem watchSet_of_only {bs : List Part} (h : Only bs s t) (hb : Part.sc ∉ bs := by decide) :
    t.sc.watchSet = s.sc.watchSet := by
  simpa [Controller.bare] using congrArg Controller.watchSet (h.parts _ hb)

/-- The stored record is the last result of its target. -/
theorem store_stores (u : ConvUnit) (r : ResultRecord) {v : ConvUnit} (last : v.lastResult = (u.store r).lastResult)
    (ref : v.lastRef = (u.store r).lastRef) : u.stores v r := by
  unfold ConvUnit.stores
  rw [last, ref]
  unfold ConvUnit.store
  cases r.target <;> exact ⟨rfl, rfl⟩

/-- What a store leaves of the CU. -/
theorem store_kept (u : ConvUnit) (r : ResultRecord) :
    u.store r = { u with lastResult := (u.store r).lastResult, lastRef := (u.store r).lastRef } := by
  unfold ConvUnit.store
  split <;> rfl

/-! ## The completion of a conversion (R32) -/

theorem exec_conversionComplete {c : Conversion} {spent : Nat} (ends : s.gateEnds c spent) (periods pin bias : Nat) :
    exec (.conversionComplete periods pin bias) s =
      .next (afterConversion c.origin spent (completeConversion c (c.record periods pin bias) s)) := by
  obtain ⟨flight, phase, elapsed⟩ := ends
  show execConversionComplete periods pin bias s = _
  have carried : s.cu.elapsedQ - gateWindowQ c.gate = spent := by rw [elapsed, gateWindowQ]; omega
  unfold execConversionComplete
  rw [flight]
  dsimp only
  rw [carried, result_eq_record]
  exact nextIf_pos (by simp [phase, gateWindowQ, elapsed]) _ _

/-- A completion whose latch work is none: the CU stores and advances. -/
theorem completeConversion_armed {c : Conversion} {r : ResultRecord}
    (armed : ∀ ch, r.target = .wired ch → s.cu.latch[ch] = .armed) :
    (completeConversion c r s).cu = ({ s.cu.store r with inFlight := none } : ConvUnit).advance c.origin s.passList.length := by
  have only := takes_only (s := s.stored r) (c := c) (r := r)
  have cu : ((s.stored r).takes c r).cu = { s.cu.store r with inFlight := none } := only.cu
  have kept : (s.stored r).cu.latch = s.cu.latch := by
    show (s.cu.store r).latch = _
    rw [store_kept]
  have stands : latchWorkOf r.target ((s.stored r).takes c r) = (s.stored r).takes c r :=
    latchWorkOf_armed fun ch target => by
      rw [only.cu, kept]
      exact armed ch target
  have list : ((s.stored r).takes c r).passList = s.passList := by
    have opState : ((s.stored r).takes c r).sc.opState = s.sc.opState := only.opState
    have watchSet : ((s.stored r).takes c r).sc.watchSet = (s.stored r).sc.watchSet := watchSet_of_only only
    have scan : ((s.stored r).takes c r).cu.scan = s.cu.scan := by
      rw [cu, store_kept]
    rw [State.passList, opState, watchSet, scan]
    rfl
  rw [completeConversion_eq, stands]
  dsimp only
  rw [State.modCu_cu, list, cu]

/-- What a completion keeps besides: the commands that wait, the operating state, and every configuration. -/
theorem completeConversion_kept (c : Conversion) (r : ResultRecord) (s : State) :
    Only convParts s (completeConversion c r s) ∧
      ∀ ch : Fin 24, (completeConversion c r s).ci.wired[ch].cfg = s.ci.wired[ch].cfg := by
  refine ⟨completeConversion_only s c r, fun ch => ?_⟩
  have judged : s.ci.Judged ((s.stored r).takes c r).ci := takes_judged (s := s.stored r)
  have ci : (completeConversion c r s).ci = ((s.stored r).takes c r).ci := (latchWorkOf_only _ r.target).ci
  rw [ci]
  exact judged.cfg ch

end

/-! ## The choice of R35 -/

/-- The next conversion in RUN and SHUTDOWN, from the queue and whether a pass has ended. -/
theorem chooseConversion_cu (ended : Bool) (spent : Nat) (s : State) :
    chooseConversion ended spent s = match s.cu.queue with
      | [] => startElement spent s
      | e :: rest =>
        if ended = true ∨ 4 ≤ s.cu.runCount then startElement spent s
        else startConversion (.wired e.ch) .priority e.hostMark spent (s.modCu fun u => { u with queue := rest }) := by
  unfold chooseConversion
  cases s.cu.queue with
  | nil => rfl
  | cons e rest =>
    dsimp only
    by_cases h : ended = true ∨ 4 ≤ s.cu.runCount
    · rw [if_pos h, if_neg]
      rcases h with h | h
      · simp [h]
      · omega
    · rw [if_neg h, if_pos]
      rw [not_or] at h
      exact ⟨by simpa using h.1, by omega⟩

/-- The first half of O48: conversions in RUN and SHUTDOWN, and what is not due. -/
theorem conversionsFollow (s : State) :
    (s.sc.opState = .run ∨ s.sc.opState = .shutdown → s.cu.path = .settling → 20 ≤ s.cu.settleMs →
      exec .pathReady s = .next { s with cu := { s.cu with
        path := .ready, inFlight := some (s.begun (s.passTarget s.cu.pos) .pass false), elapsedQ := 0 } }) ∧
    (¬ s.live ∨ s.cu.path ≠ .settling ∨ s.cu.settleMs < 20 → exec .pathReady s = .next s) ∧
    (∀ c : Conversion, s.cu.inFlight = some c → c.phase = .settle →
      (1 ≤ s.cu.elapsedQ → exec .gateOpen s = .next { s with cu := { s.cu with
        inFlight := some { c with phase := .gate }, elapsedQ := s.cu.elapsedQ - 1 } }) ∧
      (s.cu.elapsedQ = 0 → exec .gateOpen s = .next s)) ∧
    ∀ (c : Conversion) (periods pin bias : Nat), s.cu.inFlight = some c →
      c.phase = .settle ∨ s.cu.elapsedQ < 8 * 2 ^ c.gate.val →
      exec (.conversionComplete periods pin bias) s = .next s := by
  refine ⟨fun live settling due => ?_, fun notDue => ?_, fun c flight settle => ?_, fun c periods pin bias flight notDue => ?_⟩
  · have runs : exec .pathReady s = .next (startElement 0 (s.modCu fun u => { u with path := .ready })) :=
      nextIf_pos (by simp [State.live, live, settling, due]) _ _
    rw [runs, startElement_eq]
    rfl
  · exact nextIf_neg (by rcases notDue with h | h | h <;> simp [h]) _ _
  · have runs : exec .gateOpen s = nextIf (decide (c.phase = .settle) && decide (1 ≤ s.cu.elapsedQ))
        (s.modCu fun u => { u with inFlight := some { c with phase := .gate }, elapsedQ := u.elapsedQ - 1 }) s := by
      show execGateOpen s = _
      rw [execGateOpen, flight]
    rw [runs]
    exact ⟨fun due => nextIf_pos (by simp [settle, due]) _ _, fun none => nextIf_neg (by simp [none]) _ _⟩
  · show execConversionComplete periods pin bias s = _
    rw [execConversionComplete, flight]
    refine nextIf_neg (Bool.eq_false_iff.2 fun due => ?_) _ _
    rw [gateWindowQ, Bool.and_eq_true, decide_eq_true_eq, decide_eq_true_eq] at due
    rcases notDue with h | h
    · exact absurd (h.symm.trans due.1) (by decide)
    · omega

/-- A conversion whose gate has closed in RUN or SHUTDOWN, its latch ARMED, is stored and followed by what R35 chooses. -/
theorem conversionFollowed {s : State} {c : Conversion} {periods pin bias spent : Nat} (ends : s.gateEnds c spent)
    (live : s.sc.opState = .run ∨ s.sc.opState = .shutdown) (armed : ∀ ch, c.target = .wired ch → s.cu.latch[ch] = .armed) :
    let r := c.record periods pin bias
    let pos := if c.origin = .pass then s.cu.pos.following s.cu.scan.length else s.cu.pos
    let run := if c.origin = .pass then 0 else s.cu.runCount + 1
    ∃ t, exec (.conversionComplete periods pin bias) s = .next t ∧
      s.cu.stores t.cu r ∧ t.cu.pos = pos ∧ t.cu.runCount = run ∧ t.cu.elapsedQ = spent ∧ t.cu.path = s.cu.path ∧
      t.cu.scan = s.cu.scan ∧ t.cu.latch = s.cu.latch ∧ t.cu.comparator = s.cu.comparator ∧
      t.pending = s.pending ∧ t.sc.opState = s.sc.opState ∧
      match s.cu.queue with
      | [] => t.cu.queue = [] ∧ t.cu.inFlight = some (s.begun (s.passTarget pos) .pass false)
      | e :: rest =>
        if (c.origin = .pass ∧ pos = .reference) ∨ 4 ≤ run then
          t.cu.queue = e :: rest ∧ t.cu.inFlight = some (s.begun (s.passTarget pos) .pass false)
        else t.cu.queue = rest ∧ t.cu.inFlight = some (s.begun (.wired e.ch) .priority e.hostMark) := by
  intro r pos run
  obtain ⟨only, cfg⟩ := completeConversion_kept c r s
  have cu := completeConversion_armed (s := s) (c := c) (r := r) armed
  have list : s.passList = s.cu.scan := if_neg (by rcases live with h | h <;> simp [h])
  rw [exec_conversionComplete ends]
  generalize completeConversion c (c.record periods pin bias) s = d at only cfg cu
  have liveD : d.live := by
    unfold State.live
    rw [only.opState]
    exact live
  have advanced : d.cu = { s.cu with
      inFlight := none, pos, runCount := run, lastResult := (s.cu.store r).lastResult,
      lastRef := (s.cu.store r).lastRef } := by
    rw [cu, list, store_kept]
    unfold ConvUnit.advance
    cases origin : c.origin with
    | pass =>
      simp only [pos, run, origin, if_true]
      rw [next_eq_following]
    | priority => simp only [pos, run, origin, reduceCtorEq, if_false]
  have begun (target : Target) (o : Origin) (host : Bool) := begun_congr cfg target o host
  have target : d.passTarget d.cu.pos = s.passTarget pos := by
    rw [passTarget_congr only.opState (watchSet_of_only only) (by rw [advanced]), advanced]
  have element : startElement spent d = { d with
      cu := { d.cu with inFlight := some (s.begun (s.passTarget pos) .pass false), elapsedQ := spent } } := by
    rw [startElement_eq, begun, target]
  have flag : ((decide (c.origin = .pass) && decide (d.cu.pos = .reference)) = true ∨ 4 ≤ d.cu.runCount) ↔
      ((c.origin = .pass ∧ pos = .reference) ∨ 4 ≤ run) := by rw [advanced]; simp
  have keeps (queue : List PrioEntry) (flight : Option Conversion) {v : ConvUnit}
      (e : v = { d.cu with queue := queue, inFlight := flight, elapsedQ := spent }) :
      s.cu.stores v r ∧ v.pos = pos ∧ v.runCount = run ∧ v.elapsedQ = spent ∧ v.path = s.cu.path ∧
        v.scan = s.cu.scan ∧ v.latch = s.cu.latch ∧ v.comparator = s.cu.comparator ∧ d.pending = s.pending ∧
        d.sc.opState = s.sc.opState := by
    rw [e, advanced]
    exact ⟨store_stores s.cu r rfl rfl, rfl, rfl, rfl, rfl, rfl, rfl, rfl, only.pending, only.opState⟩
  have follows : afterConversion c.origin spent d =
      chooseConversion (decide (c.origin = .pass) && decide (d.cu.pos = .reference)) spent d := if_pos liveD
  refine ⟨_, rfl, ?_⟩
  rw [follows, chooseConversion_cu]
  cases queue : d.cu.queue with
  | nil =>
    have queueS : s.cu.queue = [] := by rw [← queue, advanced]
    dsimp only
    rw [element, queueS]
    obtain ⟨stored, pos, run, elapsed, path, scan, latch, comparator, pending, opState⟩ := keeps d.cu.queue _ rfl
    exact ⟨stored, pos, run, elapsed, path, scan, latch, comparator, pending, opState, queue, rfl⟩
  | cons e rest =>
    have queueS : s.cu.queue = e :: rest := by rw [← queue, advanced]
    dsimp only
    rw [if_congr flag rfl rfl, queueS]
    by_cases passes : (c.origin = .pass ∧ pos = .reference) ∨ 4 ≤ run
    · rw [if_pos passes, element]
      obtain ⟨stored, pos, run, elapsed, path, scan, latch, comparator, pending, opState⟩ := keeps d.cu.queue _ rfl
      exact ⟨stored, pos, run, elapsed, path, scan, latch, comparator, pending, opState, (if_pos passes).mpr ⟨queue, rfl⟩⟩
    · rw [if_neg passes, startConversion_eq]
      obtain ⟨stored, pos, run, elapsed, path, scan, latch, comparator, pending, opState⟩ := keeps rest _ rfl
      exact ⟨stored, pos, run, elapsed, path, scan, latch, comparator, pending, opState,
        (if_neg passes).mpr ⟨rfl, congrArg Option.some (begun (.wired e.ch) .priority e.hostMark)⟩⟩

end Sys2Proof.Machine
end
section
/-! PROOFS. The evaluation of one leaf at the end of a watch pass (R134, R137, R139). -/

namespace Sys2Proof.Machine

set_option Elab.async false

/-! ## The leaf evaluated -/

/-- A parked-watch leaf evaluated at the end of a watch pass. -/
def State.parks (s : State) (l : Leaf) : Leaf :=
  let m : Leaf := { (if l.parkedState ≠ l.state then l.enter false l.parkedState else l) with releaseRose := false }
  { m with inputFault := s.inputFaultNow m }

/-- A leaf at the end of a watch pass. -/
def State.parked (s : State) (l : Leaf) : Leaf := if l.watched then s.parks l else l

/-- DOOR/PARKED fires for a parked-watch leaf (R139, log 20). -/
def Leaf.parkFires (l : Leaf) : Bool :=
  ((decide (l.state = .locked) || decide (l.state = .closed)) &&
    !(decide (l.parkedState = .locked) || decide (l.parkedState = .closed))) || l.releaseRose

theorem parks_kept (s : State) (l : Leaf) : (s.parks l).cfg = l.cfg ∧ (s.parks l).counted = l.counted ∧
    (s.parks l).readings = l.readings ∧ (s.parks l).slow = l.slow ∧ (s.parks l).releaseRose = false := by
  unfold State.parks
  dsimp only
  split <;> exact ⟨rfl, rfl, rfl, rfl, rfl⟩

theorem parks_state (s : State) (l : Leaf) : (s.parks l).state = l.parkedState := by
  unfold State.parks
  dsimp only
  split
  · rfl
  · rename_i same
    exact (Decidable.not_not.1 same).symm

theorem parks_inputFault (s : State) (l : Leaf) : (s.parks l).inputFault = s.inputFaultNow (s.parks l) := rfl

theorem inputFaultNow_congr {s t : State} (ci : t.ci = s.ci) (l : Leaf) : t.inputFaultNow l = s.inputFaultNow l := by
  unfold State.inputFaultNow
  rw [ci]

theorem parked_congr {s t : State} (ci : t.ci = s.ci) : t.parked = s.parked := by
  funext l
  unfold State.parked State.parks
  simp only [inputFaultNow_congr ci]

theorem parked_kept (s : State) (l : Leaf) : (s.parked l).cfg = l.cfg ∧ (s.parked l).counted = l.counted := by
  unfold State.parked
  split
  · exact ⟨(parks_kept s l).1, (parks_kept s l).2.1⟩
  · exact ⟨rfl, rfl⟩

/-! ## Doorways (R134) -/

/-- A doorway's worst state is read off the leaves that name it. -/
theorem worst_congr {d e : DoorMon} {w : Fin 4} (same : ∀ i : Fin 8, e.leaves[i].cfg = d.leaves[i].cfg ∧
    (d.leaves[i].doorway = some w → e.leaves[i].state = d.leaves[i].state)) : e.worst w = d.worst w := by
  unfold DoorMon.worst
  refine List.foldl_ext _ _ _ fun acc i _ => ?_
  obtain ⟨cfg, state⟩ := same i
  rw [cfg]
  cases h : d.leaves[i].cfg with
  | none => rfl
  | some c =>
    dsimp only
    split
    · rename_i named
      rw [state (by rw [Leaf.doorway, h, ← named]; rfl)]
    · rfl

theorem deriveDoorway_dm (w : Fin 4) (s : State) :
    (deriveDoorway w s).dm = { s.dm with doorway := vset s.dm.doorway w (s.dm.worst w) } := by
  unfold deriveDoorway
  dsimp only
  split <;> rfl

theorem deriveDoorwayOf_doorway (l : Leaf) (s : State) :
    (deriveDoorwayOf l s).dm = { s.dm with doorway := (deriveDoorwayOf l s).dm.doorway } ∧
    ∀ w : Fin 4, (deriveDoorwayOf l s).dm.doorway[w] =
      if l.doorway = some w then s.dm.worst w else s.dm.doorway[w] := by
  unfold deriveDoorwayOf
  split
  · rename_i x named
    refine ⟨by rw [deriveDoorway_dm], fun w => ?_⟩
    rw [deriveDoorway_dm, vset_get, named]
    simp only [Option.some.injEq]
    split
    · rename_i same
      rw [same]
    · rfl
  · rename_i empty
    exact ⟨rfl, fun w => by rw [empty, if_neg nofun]⟩

/-! ## The step at one leaf -/

/-- The leaf and its doorway at the end of a watch pass, before the FM takes its sources. -/
def State.parksAt (s : State) (i : Fin 8) : State :=
  let x := s.modLeaf i fun _ => s.parks s.dm.leaves[i]
  if s.dm.leaves[i].parkedState ≠ s.dm.leaves[i].state then
    deriveDoorwayOf (s.parks s.dm.leaves[i]) (report .leafState i.val (val s.dm.leaves[i].parkedState.code) x)
  else x

/-- The leaf as it is when a leaf is evaluated, and what the FM is handed for it. -/
theorem parkedEvaluate_eq {i : Fin 8} {s : State} (watched : s.dm.leaves[i].watched = true) : parkedEvaluate i s =
    inFreeOrder
      [(decide (s.dm.leaves[i].lockFault ≠ (s.parks s.dm.leaves[i]).lockFault),
          setPresence (.doorLock i) (s.parks s.dm.leaves[i]).lockFault),
       (decide (s.dm.leaves[i].inputFault ≠ (s.parks s.dm.leaves[i]).inputFault),
          setPresence (.doorInput i) (s.parks s.dm.leaves[i]).inputFault),
       (s.dm.leaves[i].parkFires, fireSource (.doorParked i))] (s.parksAt i) := by
  have h : parkedEvaluate i s = _ := if_pos watched
  rw [h]
  simp only [decide_eq_true_eq]
  rfl

theorem parkedEvaluate_stands {i : Fin 8} {s : State} (other : s.dm.leaves[i].watched = false) :
    parkedEvaluate i s = s := if_neg (ne_true_of_eq_false other)

/-- Where the doorway of a leaf is derived again. -/
def Leaf.movesDoorway (l : Leaf) (w : Fin 4) : Prop :=
  l.watched = true ∧ l.parkedState ≠ l.state ∧ l.doorway = some w

/-- The sources of a leaf that the end of a watch pass hands to the FM. -/
def leafSource (i : Fin 8) : FaultSource → Prop
  | .doorLock j | .doorInput j | .doorParked j => j = i
  | _ => False

/-- A source has an entry as of some second, where the index has room. -/
structure EnteredSince (src : FaultSource) (secs : Nat) (t : State) : Prop where
  nodup : (t.fm.index.map (·.src)).Nodup
  entry : t.fm.index.length < 32 → ∃ e ∈ t.fm.index, e.src = src ∧ secs ≤ e.lastSeen

theorem EnteredSince.grows {touched : FaultSource → Prop} {src : FaultSource} {secs : Nat} {t u : State}
    (h : EnteredSince src secs t) (k : FaultsGrow touched t u) (off : ¬ touched src) : EnteredSince src secs u := by
  obtain ⟨nodup, length, stays⟩ := k.grows h.nodup
  refine ⟨nodup, fun room => ?_⟩
  obtain ⟨e, he, named, seen⟩ := h.entry (by omega)
  exact ⟨e, stays room e he (named ▸ off), named, seen⟩

theorem fireSource_enteredSince {src : FaultSource} {t : State} (nodup : (t.fm.index.map (·.src)).Nodup) :
    EnteredSince src t.sc.opSeconds (fireSource src t) := by
  obtain ⟨nodup', length, -⟩ := (fireSource_grows src t).grows nodup
  exact ⟨nodup', fun room => fireSource_enters src (by omega)⟩

/-- The evaluation of one leaf at the end of a watch pass. -/
structure State.ParksLeaf (s : State) (i : Fin 8) (t : State) : Prop where
  only    : Only [.reports, .dm, .fm, .jc, .free] s t
  doors   : t.dm = { s.dm with leaves := vmod s.dm.leaves i s.parked, doorway := t.dm.doorway }
  derived : ∀ w : Fin 4, s.dm.leaves[i].movesDoorway w → t.dm.doorway[w] = t.dm.worst w
  stands  : ∀ w : Fin 4, ¬ s.dm.leaves[i].movesDoorway w → t.dm.doorway[w] = s.dm.doorway[w]
  faults  : FaultsGrow (leafSource i) s t
  input   : (s.parked s.dm.leaves[i]).inputFault ≠ s.dm.leaves[i].inputFault →
    t.fm.present (.doorInput i) = (s.parked s.dm.leaves[i]).inputFault
  fires   : s.dm.leaves[i].watched = true → s.dm.leaves[i].parkFires = true → (s.fm.index.map (·.src)).Nodup →
    EnteredSince (.doorParked i) s.sc.opSeconds t
  quiet   : s.dm.leaves[i].watched = false ∨ s.dm.leaves[i].parkFires = false →
    ∀ e ∈ t.fm.index, e.src = .doorParked i → e ∈ s.fm.index

theorem parksAt_doors (s : State) (i : Fin 8) : Only [.reports, .dm] s (s.parksAt i) ∧
    (s.parksAt i).dm = { s.dm with
      leaves := vset s.dm.leaves i (s.parks s.dm.leaves[i]), doorway := (s.parksAt i).dm.doorway } ∧
    ∀ w : Fin 4, (s.parksAt i).dm.doorway[w] =
      if s.dm.leaves[i].parkedState ≠ s.dm.leaves[i].state ∧ s.dm.leaves[i].doorway = some w
      then (s.parksAt i).dm.worst w else s.dm.doorway[w] := by
  set x := s.modLeaf i fun _ => s.parks s.dm.leaves[i] with x_eq
  have placed : x.dm = { s.dm with leaves := vset s.dm.leaves i (s.parks s.dm.leaves[i]) } := rfl
  have stored : Only [.reports, .dm] s x := (modLeaf_only s i _).mono
  by_cases moved : s.dm.leaves[i].parkedState ≠ s.dm.leaves[i].state
  · set y := report .leafState i.val (val s.dm.leaves[i].parkedState.code) x with y_eq
    have e : s.parksAt i = deriveDoorwayOf (s.parks s.dm.leaves[i]) y := if_pos moved
    obtain ⟨frame, doorway⟩ := deriveDoorwayOf_doorway (s.parks s.dm.leaves[i]) y
    have named : (s.parks s.dm.leaves[i]).doorway = s.dm.leaves[i].doorway := by
      rw [Leaf.doorway, (parks_kept s _).1, Leaf.doorway]
    have worst (w : Fin 4) : (s.parksAt i).dm.worst w = y.dm.worst w :=
      worst_congr fun j => by rw [e, frame]; exact ⟨rfl, fun _ => rfl⟩
    refine ⟨?_, ?_, fun w => ?_⟩
    · rw [e]
      exact (stored.andThen (report_only _ _ _ _)).andThen (deriveDoorwayOf_only _ _)
    · rw [e, frame]
      rfl
    · rw [worst, e, doorway w, named]
      exact if_congr (and_iff_right moved).symm rfl rfl
  · have e : s.parksAt i = x := if_neg moved
    rw [e]
    exact ⟨stored, rfl, fun w => (if_neg fun h => moved h.1).symm⟩

theorem parkedEvaluate_parks (i : Fin 8) (s : State) : s.ParksLeaf i (parkedEvaluate i s) := by
  cases watched : s.dm.leaves[i].watched with
  | false =>
    have stands : s.parked s.dm.leaves[i] = s.dm.leaves[i] := if_neg (ne_true_of_eq_false watched)
    have notMoves (w : Fin 4) : ¬ s.dm.leaves[i].movesDoorway w := fun h => ne_true_of_eq_false watched h.1
    rw [parkedEvaluate_stands watched]
    exact
      { only := .refl _ _
        doors := by rw [vmod_eq_self stands]
        derived := fun w h => absurd h (notMoves w)
        stands := fun _ _ => rfl
        faults := .refl _ _
        input := fun h => absurd (congrArg Leaf.inputFault stands) h
        fires := fun h => absurd (watched.symm.trans h) nofun
        quiet := fun _ e he _ => he }
  | true =>
    have leaf : s.parked s.dm.leaves[i] = s.parks s.dm.leaves[i] := if_pos watched
    obtain ⟨only, doors, doorway⟩ := parksAt_doors s i
    have whole : Only [.reports, .fm, .jc, .free] (s.parksAt i) (parkedEvaluate i s) ∧
        FaultsGrow (leafSource i) (s.parksAt i) (parkedEvaluate i s) := by
      rw [parkedEvaluate_eq watched]
      refine inFreeOrder_induct (fun t => Only [.reports, .fm, .jc, .free] (s.parksAt i) t ∧
        FaultsGrow (leafSource i) (s.parksAt i) t) ⟨.free (by decide), .ofFm rfl⟩ fun u hu t ⟨onlyT, growsT⟩ => ?_
      simp only [List.mem_cons, Prod.mk.injEq, List.not_mem_nil, or_false] at hu
      rcases hu with ⟨-, rfl⟩ | ⟨-, rfl⟩ | ⟨-, rfl⟩
      · exact ⟨onlyT.trans (setPresence_only _ _ _).mono, growsT.trans ((setPresence_grows _ _ _).mono fun _ e => e ▸ rfl)⟩
      · exact ⟨onlyT.trans (setPresence_only _ _ _).mono,
          growsT.trans ((setPresence_grows _ _ _).mono fun _ e => e ▸ rfl)⟩
      · exact ⟨onlyT.trans (fireSource_only _ _).mono, growsT.trans ((fireSource_grows _ _).mono fun _ e => e ▸ rfl)⟩
    obtain ⟨handed, grown⟩ := whole
    refine
      { only := only.mono.trans handed.mono
        doors := ?_
        derived := fun w moves => ?_
        stands := fun w rests => ?_
        faults := FaultsGrow.trans (.ofFm only.fm) grown
        input := fun changed => ?_
        fires := fun _ fires nodup => ?_
        quiet := fun silent => ?_ }
    · rw [handed.dm, doors, vmod, leaf]
    · rw [handed.dm, doorway w, if_pos moves.2]
    · rw [handed.dm, doorway w, if_neg fun h => rests ⟨watched, h⟩]
    · rw [leaf] at changed ⊢
      rw [parkedEvaluate_eq watched]
      refine inFreeOrder_at (fun _ => True) (fun t => t.fm.present (.doorInput i) = (s.parks s.dm.leaves[i]).inputFault)
        [_] [_] trivial (fun v hv t => ⟨fun _ => trivial, fun h => ?_⟩) (fun _ t _ => setPresence_present _ _ t)
        (fun same => absurd (of_decide_eq_false same) fun h => h (Ne.symm changed))
      simp only [List.singleton_append, List.mem_cons, Prod.mk.injEq, List.not_mem_nil, or_false] at hv
      rcases hv with ⟨-, rfl⟩ | ⟨-, rfl⟩
      · exact ((setPresence_grows (.doorLock i) _ t).present (.doorInput i) nofun).trans h
      · exact ((fireSource_grows (.doorParked i) t).present (.doorInput i) nofun).trans h
    · rw [parkedEvaluate_eq watched]
      refine inFreeOrder_at (fun t => (t.fm.index.map (·.src)).Nodup ∧ t.sc = s.sc)
        (fun t => EnteredSince (.doorParked i) s.sc.opSeconds t) [_, _] []
        ⟨by rw [← only.fm] at nodup; exact nodup, only.sc⟩ (fun v hv t => ?_)
        (fun _ t ⟨nodup, sc⟩ => sc ▸ fireSource_enteredSince nodup)
        (fun idle => absurd (fires.symm.trans idle) nofun)
      simp only [List.append_nil, List.mem_cons, Prod.mk.injEq, List.not_mem_nil, or_false] at hv
      have other (src : FaultSource) (p : Bool) (off : FaultSource.doorParked i ≠ src) :
          ((t.fm.index.map (·.src)).Nodup ∧ t.sc = s.sc →
            ((setPresence src p t).fm.index.map (·.src)).Nodup ∧ (setPresence src p t).sc = s.sc) ∧
          (EnteredSince (.doorParked i) s.sc.opSeconds t →
            EnteredSince (.doorParked i) s.sc.opSeconds (setPresence src p t)) :=
        have grows := setPresence_grows src p t
        ⟨fun ⟨nodup, sc⟩ => ⟨(grows.grows nodup).1, (setPresence_only t src p).sc.trans sc⟩, fun h => h.grows grows off⟩
      rcases hv with ⟨-, rfl⟩ | ⟨-, rfl⟩
      · exact other _ _ nofun
      · exact other _ _ nofun
    · have still := silent.resolve_left (ne_false_of_eq_true watched)
      rw [parkedEvaluate_eq watched]
      refine inFreeOrder_induct (fun t => ∀ e ∈ t.fm.index, e.src = .doorParked i → e ∈ s.fm.index)
        (by intro e he _; rwa [← only.fm]) fun u hu t h e he named => ?_
      simp only [List.mem_cons, Prod.mk.injEq, List.not_mem_nil, or_false] at hu
      rcases hu with ⟨-, rfl⟩ | ⟨-, rfl⟩ | ⟨fires, -⟩
      · exact h e ((setPresence_grows _ _ t).others e he (named ▸ nofun)) named
      · exact h e ((setPresence_grows _ _ t).others e he (named ▸ nofun)) named
      · exact absurd (fires.trans still) nofun

end Sys2Proof.Machine
end
section
/-! PROOFS. The end of a watch pass at every leaf (R128, R134, R137, R139). -/

namespace Sys2Proof.Machine

set_option Elab.async false

/-! ## One leaf among all -/

/-- What holds before the turn of one element, and what its turn brings about and the others keep. -/
theorem forEach_at (P Q : State → Prop) {n : Nat} {f : Fin n → State → State} {s : State} (i : Fin n) (start : P s)
    (before : ∀ j, j ≠ i → ∀ t, P t → P (f j t)) (here : ∀ t, P t → Q (f i t))
    (after : ∀ j, j ≠ i → ∀ t, Q t → Q (f j t)) : Q (forEach f s) := by
  obtain ⟨pre, post, split⟩ := List.append_of_mem (List.mem_finRange i)
  have nodup : (pre ++ i :: post).Nodup := split ▸ List.nodup_finRange n
  rw [List.nodup_middle, List.nodup_cons, List.mem_append, not_or] at nodup
  obtain ⟨⟨notPre, notPost⟩, -⟩ := nodup
  unfold forEach
  rw [split, List.foldl_append, List.foldl_cons]
  refine foldl_induct Q _ post _ (here _ (foldl_induct P _ pre s start fun j hj t h => ?_)) fun j hj t h => ?_
  · exact before j (fun e => notPre (e ▸ hj)) t h
  · exact after j (fun e => notPost (e ▸ hj)) t h

theorem leafSource_disjoint {i j : Fin 8} (other : j ≠ i) (src : FaultSource) (h : leafSource j src) :
    ¬ leafSource i src := by
  cases src with
  | doorLock l => exact fun k => other (h.symm.trans k)
  | doorInput l => exact fun k => other (h.symm.trans k)
  | doorParked l => exact fun k => other (h.symm.trans k)
  | _ => exact absurd h nofun

section
variable {s t : State} {i j : Fin 8} {w : Fin 4}

theorem State.ParksLeaf.leaf (h : s.ParksLeaf i t) : t.dm.leaves[i] = s.parked s.dm.leaves[i] := by
  rw [h.doors, vmod_self]

theorem State.ParksLeaf.other (h : s.ParksLeaf j t) (ne : j ≠ i) : t.dm.leaves[i] = s.dm.leaves[i] := by
  rw [h.doors, vmod_get, if_neg ne]

/-- The worst state of a doorway stands at a leaf that does not derive it. -/
theorem State.ParksLeaf.worst_stands (h : s.ParksLeaf j t) (rests : ¬ s.dm.leaves[j].movesDoorway w) :
    t.dm.worst w = s.dm.worst w := by
  refine worst_congr fun i => ?_
  by_cases ne : j = i
  · subst ne
    rw [h.leaf]
    refine ⟨(parked_kept s _).1, fun named => ?_⟩
    unfold State.parked
    split
    · rename_i watched
      rw [parks_state]
      exact Decidable.not_not.1 fun moved => rests ⟨watched, moved, named⟩
    · rfl
  · rw [h.other ne]
    exact ⟨rfl, fun _ => rfl⟩

end

/-- A leaf once the end of the watch pass is over. -/
structure State.LeafParked (s : State) (i : Fin 8) (t : State) : Prop where
  leaf    : t.dm.leaves[i] = s.parked s.dm.leaves[i]
  ci      : t.ci = s.ci
  derived : ∀ w : Fin 4, s.dm.leaves[i].movesDoorway w → t.dm.doorway[w] = t.dm.worst w
  input   : (s.parked s.dm.leaves[i]).inputFault ≠ s.dm.leaves[i].inputFault →
    t.fm.present (.doorInput i) = (s.parked s.dm.leaves[i]).inputFault
  fires   : s.dm.leaves[i].watched = true → s.dm.leaves[i].parkFires = true → (s.fm.index.map (·.src)).Nodup →
    EnteredSince (.doorParked i) s.sc.opSeconds t
  quiet   : s.dm.leaves[i].watched = false ∨ s.dm.leaves[i].parkFires = false →
    ∀ e ∈ t.fm.index, e.src = .doorParked i → e ∈ s.fm.index

theorem forEach_parkedEvaluate (i : Fin 8) (s : State) : s.LeafParked i (forEach parkedEvaluate s) := by
  refine forEach_at
    (fun t => t.ci = s.ci ∧ t.sc = s.sc ∧ t.dm.leaves[i] = s.dm.leaves[i] ∧ FaultsGrow (fun src => ¬ leafSource i src) s t)
    (fun t => s.LeafParked i t) i ⟨rfl, rfl, rfl, .refl _ _⟩ ?_ ?_ ?_
  · rintro j ne t ⟨ci, sc, leaf, grown⟩
    have step := parkedEvaluate_parks j t
    exact ⟨step.only.ci.trans ci, step.only.sc.trans sc, (step.other ne).trans leaf,
      grown.trans (step.faults.mono (leafSource_disjoint ne))⟩
  · rintro t ⟨ci, sc, leaf, grown⟩
    have step := parkedEvaluate_parks i t
    have parked := parked_congr ci
    exact
      { leaf := by rw [step.leaf, parked, leaf]
        ci := step.only.ci.trans ci
        derived := fun w moves => step.derived w (leaf.symm ▸ moves)
        input := fun changed => by
          have handed := step.input
          rw [parked, leaf] at handed
          exact handed changed
        fires := fun watched fires nodup => by
          have entered := step.fires (leaf.symm ▸ watched) (leaf.symm ▸ fires) (grown.grows nodup).1
          rwa [sc] at entered
        quiet := fun silent e he named => by
          have old := step.quiet (leaf.symm ▸ silent) e he named
          exact grown.others e old fun off => off (named ▸ rfl) }
  · intro j ne t h
    have step := parkedEvaluate_parks j t
    have own : ¬ leafSource j (.doorInput i) ∧ ¬ leafSource j (.doorParked i) :=
      ⟨fun e => ne e.symm, fun e => ne e.symm⟩
    exact
      { leaf := (step.other ne).trans h.leaf
        ci := step.only.ci.trans h.ci
        derived := fun w moves => by
          by_cases again : t.dm.leaves[j].movesDoorway w
          · exact step.derived w again
          · rw [step.stands w again, step.worst_stands again]
            exact h.derived w moves
        input := fun changed => (step.faults.present _ own.1).trans (h.input changed)
        fires := fun watched fires nodup => (h.fires watched fires nodup).grows step.faults own.2
        quiet := fun silent e he named => h.quiet silent e (step.faults.others e he (named ▸ own.2)) named }

/-- What the evaluation of all leaves leaves alone. -/
theorem forEach_parkedEvaluate_kept (s : State) : Only [.reports, .dm, .fm, .jc, .free] s (forEach parkedEvaluate s) ∧
    (forEach parkedEvaluate s).dm = { s.dm with
      leaves := (forEach parkedEvaluate s).dm.leaves, doorway := (forEach parkedEvaluate s).dm.doorway } ∧
    (forEach parkedEvaluate s).fm.freeze = s.fm.freeze ∧
    (forEach parkedEvaluate s).fm.clearPending = s.fm.clearPending := by
  refine forEach_induct (fun t => Only [.reports, .dm, .fm, .jc, .free] s t ∧
    t.dm = { s.dm with leaves := t.dm.leaves, doorway := t.dm.doorway } ∧ t.fm.freeze = s.fm.freeze ∧
    t.fm.clearPending = s.fm.clearPending) _ s ⟨.refl _ _, rfl, rfl, rfl⟩ fun i t ⟨only, doors, freeze, clear⟩ => ?_
  have step := parkedEvaluate_parks i t
  refine ⟨only.trans step.only, ?_, step.faults.kept.1.trans freeze, step.faults.kept.2.trans clear⟩
  rw [step.doors, doors]

end Sys2Proof.Machine
end
section
/-! PROOFS. Leaves during a watch pass: their readings, and where the end of the pass leaves them (R127, R128, R139, log 30). -/

namespace Sys2Proof.Machine

set_option Elab.async false

/-! ## Readings (R127) -/

theorem reading_eq_takes (x : LeafInput) (v : ChanView) (old : Reading) : x.reading v old = x.takes v old := by
  have wired : (asWired x.ch).isSome = true ↔ x.ch.val < 24 := by
    unfold asWired item?
    split <;> simp_all
  unfold LeafInput.reading LeafInput.takes
  cases v.status with
  | valid =>
    dsimp only [ChanView.reads]
    by_cases h : x.ch.val < 24
    · rw [if_pos (wired.2 h), if_pos h]
      cases v.reading with
      | none => rfl
      | some r => cases r <;> cases x.inverted <;> rfl
    · rw [if_neg fun k => h (wired.1 k), if_neg h]
      by_cases zero : v.value.getD 0 = 0
      · rw [if_neg (not_not.2 zero)]
        cases x.inverted <;> simp [zero, Reading.polar]
      · rw [if_pos zero]
        cases x.inverted <;> simp [zero, Reading.polar]
  | _ => rfl

section
variable {s t : State} {i : Fin 8}

theorem leafReadings_takes (t : State) (a b : Interp) (ci : t.ci = b) (l : Leaf) (slot : Fin 5) :
    (t.leafReadings l (changedChannels a b))[slot] = match l.input slot with
      | some x => if a.eff x.ch = b.eff x.ch then l.readings[slot] else x.takes (b.eff x.ch) l.readings[slot]
      | none => l.readings[slot] := by
  refine (tab_get _ slot).trans ?_
  cases l.input slot with
  | none => rfl
  | some x =>
    dsimp only
    rw [ci, ← reading_eq_takes]
    by_cases same : a.eff x.ch = b.eff x.ch
    · rw [if_pos same, if_neg fun mem => mem_changedChannels.1 mem same]
    · rw [if_neg same, if_pos (mem_changedChannels.2 same)]

/-! ## The conditions of R128 -/

theorem blind_iff (l : Leaf) : l.blind = true ↔ l.unseen := by
  unfold Leaf.blind Leaf.unseen Leaf.critical
  rw [List.any_eq_true]
  simp only [List.mem_finRange, true_and, Bool.and_eq_true, Bool.or_eq_true, decide_eq_true_eq]
  constructor
  · rintro ⟨slot, (rfl | ⟨rfl, lock⟩) | ⟨rfl, release⟩, unknown⟩
    · exact .inl unknown
    · exact .inr (.inl ⟨lock, unknown⟩)
    · exact .inr (.inr ⟨release, unknown⟩)
  · rintro (unknown | ⟨lock, unknown⟩ | ⟨release, unknown⟩)
    · exact ⟨slotClosed, .inl (.inl rfl), unknown⟩
    · exact ⟨slotLocked, .inl (.inr ⟨rfl, lock⟩), unknown⟩
    · exact ⟨slotRelease, .inr ⟨rfl, release⟩, unknown⟩

theorem pulled_iff (l : Leaf) : l.pulled = true ↔ l.onRelease := by
  simp only [Leaf.pulled, Leaf.onRelease, Bool.and_eq_true, decide_eq_true_eq]

theorem rederived_eq_standing (l : Leaf) : l.rederived = l.standing := by
  simp only [Leaf.rederived, Leaf.standing, Leaf.perInputs, Leaf.shut, Bool.and_eq_true, decide_eq_true_eq]

/-- Two leaves with the same inputs and the same readings. -/
structure Leaf.SeesAs (a b : Leaf) : Prop where
  cfg      : b.cfg = a.cfg
  counted  : b.counted = a.counted
  readings : b.readings = a.readings

theorem Leaf.SeesAs.view {a b : Leaf} (h : a.SeesAs b) : (b.unseen ↔ a.unseen) ∧ (b.onRelease ↔ a.onRelease) ∧
    b.standing = a.standing := by
  cases a
  cases b
  obtain ⟨rfl, rfl, rfl⟩ := h
  exact ⟨Iff.rfl, Iff.rfl, rfl⟩

/-- Where the end of a watch pass takes a leaf (R139). -/
theorem parks_follows (s : State) (l : Leaf) : ((s.parks l).unseen → (s.parks l).state = .unknown) ∧
    (¬ (s.parks l).unseen → (s.parks l).onRelease → (s.parks l).state = .released) ∧
    (¬ (s.parks l).unseen → ¬ (s.parks l).onRelease → (s.parks l).state = (s.parks l).standing) := by
  obtain ⟨cfg, counted, readings, -, -⟩ := parks_kept s l
  obtain ⟨unseen, onRelease, standing⟩ := Leaf.SeesAs.view ⟨cfg, counted, readings⟩
  rw [parks_state, unseen, onRelease, standing, ← blind_iff, ← pulled_iff, ← rederived_eq_standing, Leaf.parkedState]
  refine ⟨fun blind => if_pos blind, fun sees pulled => ?_, fun sees rests => ?_⟩
  · rw [if_neg sees, if_pos pulled]
  · rw [if_neg sees, if_neg rests]

/-- DOOR/INPUT (R137). -/
theorem inputFaultNow_iff (s : State) (l : Leaf) : s.inputFaultNow l = true ↔ l.state = .unknown ∧
    ∃ (slot : Fin 5) (x : LeafInput), (slot = slotClosed ∨ slot = slotLocked ∨ slot = slotRelease) ∧
      l.input slot = some x ∧ l.readings[slot] = .unknown ∧
      ((s.ci.eff x.ch).status = .fault ∨ (s.ci.eff x.ch).status = .lost) := by
  unfold State.inputFaultNow
  rw [Bool.and_eq_true, decide_eq_true_eq, List.any_eq_true]
  refine and_congr_right fun _ => exists_congr fun slot => ?_
  simp only [List.mem_finRange, true_and, Bool.and_eq_true, decide_eq_true_eq]
  cases input : l.input slot with
  | none => simp
  | some x =>
    have critical : l.critical slot = true ↔ slot = slotClosed ∨ slot = slotLocked ∨ slot = slotRelease := by
      unfold Leaf.critical
      simp only [Bool.or_eq_true, Bool.and_eq_true, decide_eq_true_eq]
      constructor
      · rintro ((h | ⟨h, -⟩) | ⟨h, -⟩)
        · exact .inl h
        · exact .inr (.inl h)
        · exact .inr (.inr h)
      · rintro (h | h | h)
        · exact .inl (.inl h)
        · exact .inl (.inr ⟨h, by rw [Leaf.hasLock, ← h, input]; rfl⟩)
        · exact .inr ⟨h, by rw [Leaf.hasRelease, ← h, input]; rfl⟩
    simp only [critical, Option.some.injEq, exists_eq_left', Bool.or_eq_true, decide_eq_true_eq, and_assoc,
      exists_and_left]

end

/-! ## What a result and the end of a pass leave of a leaf -/

theorem watched_iff (l : Leaf) : l.watched = true ↔ ∃ c, l.cfg = some c ∧ c.watched = true := by
  unfold Leaf.watched
  cases l.cfg <;> simp

theorem unwatched_iff (l : Leaf) : l.watched = false ↔ ∀ c, l.cfg = some c → c.watched = false := by
  unfold Leaf.watched
  cases l.cfg <;> simp

/-- A leaf after a result, in PARKED. -/
theorem recorded_watched {s : State} {l : Leaf} (watched : l.watched = true) (chs : List (Fin 40)) : s.recorded chs l =
    { l with
      readings := s.leafReadings l chs
      releaseRose := l.releaseRose || decide ((s.leafReadings l chs)[slotRelease] = .active ∧
        l.readings[slotRelease] ≠ .active) } := by
  rw [State.recorded, if_pos watched]
  simp only [Bool.decide_and]

section
variable {s t d : State} {i : Fin 8}

/-- The leaves of a state are those of another but for the readings recorded of the channels that have changed. -/
def State.Records (s t : State) : Prop :=
  t.dm = { s.dm with leaves := vmap (t.recorded (changedChannels s.ci t.ci)) s.dm.leaves }

theorem State.Records.leaf (h : s.Records t) (i : Fin 8) :
    t.dm.leaves[i] = t.recorded (changedChannels s.ci t.ci) s.dm.leaves[i] := by
  rw [h, vmap_get]

theorem leafRecords_of_records (h : s.Records t) (i : Fin 8) : s.leafRecords t i := by
  have leaf := h.leaf i
  refine ⟨fun watched => ?_, fun other => ?_⟩
  · rw [recorded_watched ((watched_iff _).2 watched)] at leaf
    refine ⟨fun slot => ?_, ?_⟩
    · rw [leaf]
      exact leafReadings_takes t s.ci t.ci rfl _ slot
    · rw [leaf]
  · rw [leaf, State.recorded, if_neg (ne_true_of_eq_false ((unwatched_iff _).2 other))]

theorem leafParks_of_records (h : s.Records d) (faults : FaultsGrow conversionSource s d) (sc : d.sc = s.sc)
    (parked : d.LeafParked i t) : s.leafParks t i := by
  have before := h.leaf i
  have after := parked.leaf
  refine ⟨fun other => ?_, fun c cfg watched => ?_⟩
  · have notWatched := ne_true_of_eq_false ((unwatched_iff _).2 other)
    have stands : d.dm.leaves[i] = s.dm.leaves[i] := by rw [before, State.recorded, if_neg notWatched]
    rw [after, stands, State.parked, if_neg notWatched]
  · have isWatched : s.dm.leaves[i].watched = true := (watched_iff _).2 ⟨c, cfg, watched⟩
    rw [recorded_watched isWatched] at before
    set a := s.dm.leaves[i] with a_eq
    set m := d.dm.leaves[i] with m_eq
    have watchedM : m.watched = true := by rw [before]; exact isWatched
    have leaf : t.dm.leaves[i] = d.parks m := by rw [after, State.parked, if_pos watchedM]
    obtain ⟨-, -, readings, slow, rose⟩ := parks_kept d m
    obtain ⟨blind, pulled, clear⟩ := parks_follows d m
    have state := parks_state d m
    have now : (d.parks m).readings = d.leafReadings a (changedChannels s.ci d.ci) := by rw [readings, before]
    have stateM : m.state = a.state := by rw [before]
    have doorwayM : m.doorway = some c.doorway := by rw [before, Leaf.doorway, cfg]; rfl
    have inputM : m.inputFault = a.inputFault := by rw [before]
    have roseM : m.releaseRose = (a.releaseRose || decide ((d.parks m).readings[slotRelease] = .active ∧
        a.readings[slotRelease] ≠ .active)) := by rw [now, before]
    have fires : m.parkFires = true ↔ ((a.state = .locked ∨ a.state = .closed) ∧ (d.parks m).state ≠ .locked ∧
        (d.parks m).state ≠ .closed) ∨ a.releaseRose = true ∨
        ((d.parks m).readings[slotRelease] = .active ∧ a.readings[slotRelease] ≠ .active) := by
      simp only [Leaf.parkFires, roseM, stateM, state, Bool.or_eq_true, Bool.and_eq_true, Bool.not_eq_true',
        Bool.or_eq_false_iff, decide_eq_true_eq, decide_eq_false_iff_not, ne_eq]
    have parkedM : d.parked m = d.parks m := by rw [State.parked, if_pos watchedM]
    have input := parked.input
    rw [← m_eq, parkedM] at input
    rw [leaf]
    refine ⟨fun slot => ?_, blind, pulled, clear, rose, ?_, fun moved => ?_, ?_, fun changed => ?_, fun fired sound room => ?_,
      fun still e he named => ?_⟩
    · rw [leaf, now, parked.ci]
      exact leafReadings_takes d s.ci d.ci rfl a slot
    · rw [slow, before]
    · exact parked.derived c.doorway ⟨watchedM, by rwa [← state, stateM], doorwayM⟩
    · rw [parks_inputFault, inputFaultNow_iff, parked.ci]
    · exact input (by rwa [inputM])
    · obtain ⟨-, nodup, -⟩ := sound
      have entered := (parked.fires watchedM (fires.2 fired) (faults.grows nodup).1).entry room
      rwa [sc] at entered
    · have old := parked.quiet (.inr (by rw [← Bool.not_eq_true, fires]; exact still)) e he named
      exact faults.others e old (named ▸ id)

end

end Sys2Proof.Machine
end
section
/-! PROOFS. The completion of a conversion of the watch pass, and what it keeps (R28, R40, R43, R71, R139). -/

namespace Sys2Proof.Machine

set_option Elab.async false

/-! ## What the watch keeps -/

/-- The parts that a conversion of the watch pass can change. -/
abbrev watchParts : List Part := [.reports, .sc, .service, .cu, .ci, .dm, .fm, .jc, .free]

section
variable {s t u d : State}

theorem Only.watch (h : Only watchParts s t) : t = { s with
    li := t.li, sc := t.sc, cu := t.cu, ci := t.ci, dm := t.dm, fm := t.fm, jc := t.jc, freeCount := t.freeCount } := by
  have pending := h.pending
  have ge := h.ge
  have wm := h.wm
  have ao := h.ao
  cases t
  simp_all

theorem Only.link {bs : List Part} (h : Only bs s t) :
    t.li = { s.li with reports := t.li.reports, nextSeq := t.li.nextSeq } := by
  refine h.placed.induct (fun l => l = { s.li with reports := l.reports, nextSeq := l.nextSeq }) rfl fun e i v l placed => ?_
  rw [placed]
  rfl

/-- What the watch keeps block by block, named. -/
structure State.WatchKept (s t : State) : Prop where
  only   : Only watchParts s t
  sc     : t.sc = { s.sc with watch := t.sc.watch }
  cu     : t.cu = { s.cu with
    inFlight := t.cu.inFlight, elapsedQ := t.cu.elapsedQ, pos := t.cu.pos, runCount := t.cu.runCount,
    latch := t.cu.latch, lastResult := t.cu.lastResult, lastRef := t.cu.lastRef }
  ci     : s.ci.Judged t.ci
  dm     : t.dm = { s.dm with leaves := t.dm.leaves, doorway := t.dm.doorway }
  leaves : ∀ i : Fin 8, t.dm.leaves[i].cfg = s.dm.leaves[i].cfg ∧ t.dm.leaves[i].counted = s.dm.leaves[i].counted
  fm     : t.fm.freeze = s.fm.freeze ∧ t.fm.clearPending = s.fm.clearPending

theorem State.WatchKept.keepsWatch (h : s.WatchKept t) : s.keepsWatch t :=
  ⟨h.only.watch, h.only.link, h.sc, h.cu, h.ci.frame, h.ci.cfg, h.dm, h.leaves, h.fm.1, h.fm.2⟩

theorem State.WatchKept.trans (h : s.WatchKept t) (k : t.WatchKept u) : s.WatchKept u where
  only := h.only.trans k.only
  sc := by rw [k.sc, h.sc]
  cu := by rw [k.cu, h.cu]
  ci := h.ci.trans k.ci
  dm := by rw [k.dm, h.dm]
  leaves i := ⟨(k.leaves i).1.trans (h.leaves i).1, (k.leaves i).2.trans (h.leaves i).2⟩
  fm := ⟨k.fm.1.trans h.fm.1, k.fm.2.trans h.fm.2⟩

/-- A conversion that starts during the watch. -/
theorem watchKept_of_cu (only : Only [.cu] s t) (cu : t.cu = { s.cu with
    inFlight := t.cu.inFlight, elapsedQ := t.cu.elapsedQ, pos := t.cu.pos, runCount := t.cu.runCount,
    latch := t.cu.latch, lastResult := t.cu.lastResult, lastRef := t.cu.lastRef }) : s.WatchKept t where
  only := only.mono
  sc := by rw [only.sc]
  cu := cu
  ci := by rw [only.ci]; exact .refl _
  dm := by rw [only.dm]
  leaves i := by rw [only.dm]; exact ⟨rfl, rfl⟩
  fm := by rw [only.fm]; exact ⟨rfl, rfl⟩

theorem startElement_watchKept (spent : Nat) (s : State) : s.WatchKept (startElement spent s) :=
  watchKept_of_cu (startElement_only s spent) (by rw [startElement_eq])

theorem beginWatchPass_watchKept (spent : Nat) (s : State) : s.WatchKept (beginWatchPass spent s) :=
  State.WatchKept.trans (watchKept_of_cu (modCu_only s fun u => { u with pos := .reference }) rfl)
    (startElement_watchKept spent _)

theorem draining_watchKept (s : State) : s.WatchKept (s.modSc fun c => { c with watch := .draining }) where
  only := (modSc_only s _).mono
  sc := rfl
  cu := rfl
  ci := .refl _
  dm := rfl
  leaves _ := ⟨rfl, rfl⟩
  fm := ⟨rfl, rfl⟩

theorem forEach_parkedEvaluate_watchKept (s : State) : s.WatchKept (forEach parkedEvaluate s) := by
  obtain ⟨only, doors, fm⟩ := forEach_parkedEvaluate_kept s
  exact
    { only := only.mono
      sc := by rw [only.sc]
      cu := by rw [only.cu]
      ci := by rw [only.ci]; exact .refl _
      dm := doors
      leaves := fun i => by rw [(forEach_parkedEvaluate i s).leaf]; exact parked_kept s _
      fm := fm }

/-! ## The completion -/

/-- A conversion of the watch pass completed, before what follows it. -/
structure State.CompletesParked (s : State) (c : Conversion) (r : ResultRecord) (d : State) : Prop where
  kept    : s.WatchKept d
  sc      : d.sc = s.sc
  records : s.Records d
  faults  : FaultsGrow conversionSource s d
  stored  : d.cu = { s.cu with
    inFlight := none, pos := s.cu.pos.following s.sc.watchSet.length, runCount := 0, latch := d.cu.latch,
    lastResult := (s.cu.store r).lastResult, lastRef := (s.cu.store r).lastRef }
  stands  : ∀ ch : Fin 24, r.target ≠ .wired ch ∨ s.cu.latch[ch] = .armed → d.cu.latch[ch] = s.cu.latch[ch]
  rearms  : ∀ ch : Fin 24, r.target = .wired ch → s.cu.latch[ch] = .set →
    s.ci.wired[ch].cfg.thresholds.Pairwise (· < ·) → s.ci.wired[ch].cfg.holds s.ci.wired[ch].confirmed →
    (d.cu.latch[ch] = .armed ↔
      ∃ k, d.ci.wired[ch].confirmed = some k ∧ s.ci.wired[ch].cfg.liesOn k s.cu.comparator[ch])

theorem completeConversion_parked {c : Conversion} {r : ResultRecord} (origin : c.origin = .pass)
    (parked : s.sc.opState = .parked) (rest : ∀ g : Fin 8, s.ge[g].pointer = .unpowered) :
    s.CompletesParked c r (completeConversion c r s) := by
  have taken : (s.stored r).TakesParked ((s.stored r).takes c r) := takes_parked parked rest
  have holds (ch : Fin 24) (target : r.target = .wired ch) :
      s.ci.wired[ch].cfg.holds s.ci.wired[ch].confirmed →
        s.ci.wired[ch].cfg.holds ((s.stored r).takes c r).ci.wired[ch].confirmed :=
    takes_holds (s := s.stored r) (c := c) target
  rw [completeConversion_eq]
  generalize (s.stored r).takes c r = x at taken holds
  obtain ⟨only, ci, doors, faults⟩ := taken
  have cuX : x.cu = { s.cu.store r with inFlight := none } := only.cu
  have scX : x.sc = s.sc := only.sc
  have out : ¬ x.live := by simp [State.live, scX, parked]
  obtain ⟨cuY, standsY, rearmsY⟩ := latchWorkOf_parked out r.target
  have work := latchWorkOf_only x r.target
  generalize latchWorkOf r.target x = y at cuY standsY rearmsY work
  have list : y.passList = s.sc.watchSet := by
    rw [State.passList, work.sc, scX, if_pos parked]
  have advanced : y.cu.advance c.origin y.passList.length = { s.cu with
      inFlight := none, pos := s.cu.pos.following s.sc.watchSet.length, runCount := 0, latch := y.cu.latch,
      lastResult := (s.cu.store r).lastResult, lastRef := (s.cu.store r).lastRef } := by
    rw [list, origin]
    show { y.cu with runCount := 0, pos := y.cu.pos.next s.sc.watchSet.length } = _
    rw [cuY, cuX, store_kept, ← next_eq_following]
  have latchX (ch : Fin 24) : x.cu.latch[ch] = s.cu.latch[ch] := by rw [cuX, store_kept]
  have comparatorX (ch : Fin 24) : x.cu.comparator[ch] = s.cu.comparator[ch] := by rw [cuX, store_kept]
  dsimp only
  set d := y.modCu fun u => u.advance c.origin y.passList.length with d_eq
  have cuD : d.cu = y.cu.advance c.origin y.passList.length := rfl
  have onlyD : Only [.reports, .cu, .ci, .dm, .fm, .jc, .free] s d :=
    (((modCu_only s _).mono.trans only.mono).trans work.mono).trans (modCu_only y _).mono
  have ciD : d.ci = x.ci := work.ci
  have dmD : d.dm = x.dm := work.dm
  have fmD : d.fm = x.fm := work.fm
  have opened : FaultsGrow conversionSource s (s.stored r) := .ofFm rfl
  have recorded : s.Records d := by
    unfold State.Records
    rw [dmD, ciD, doors]
    exact congrArg (fun f => { s.dm with leaves := vmap f s.dm.leaves }) (recorded_congr ciD.symm _)
  exact
    { kept :=
        { only := onlyD.mono
          sc := by rw [onlyD.sc]
          cu := by rw [cuD, advanced]
          ci := by rw [ciD]; exact ci
          dm := by rw [recorded]
          leaves := fun i => by
            rw [recorded.leaf i]
            unfold State.recorded
            split <;> exact ⟨rfl, rfl⟩
          fm := by rw [fmD]; exact faults.kept }
      sc := onlyD.sc
      records := recorded
      faults := (opened.trans faults).trans (.ofFm fmD)
      stored := by rw [cuD, advanced]
      stands := fun ch h => by
        have kept := standsY ch (by rwa [latchX])
        rw [cuD, advanced]
        exact kept.trans (latchX ch)
      rearms := fun ch target set sorted held => by
        have cfg : x.ci.wired[ch].cfg = s.ci.wired[ch].cfg := ci.cfg ch
        have heldX := holds ch target held
        have iff := (rearmsY ch target (by rwa [latchX])).trans (rearms_iff (by rwa [cfg]) (by rwa [cfg]))
        rw [cfg, comparatorX] at iff
        rw [cuD, advanced, ciD]
        exact iff }

end

end Sys2Proof.Machine
end
section
/-! PROOFS. The watch pass: what follows the completion of a conversion in PARKED (R28, R29, R43, R139). -/

namespace Sys2Proof.Machine

set_option Elab.async false

section
variable {s t u d : State} {c : Conversion} {r : ResultRecord} {spent : Nat}

/-! ## What follows the completion -/

theorem afterConversion_parked (h : s.CompletesParked c r d) (parked : s.sc.opState = .parked) (origin : c.origin = .pass) :
    afterConversion c.origin spent d =
      if s.cu.pos.following s.sc.watchSet.length = .reference then endWatchPass spent d else startElement spent d := by
  have out : ¬ d.live := by simp [State.live, h.sc, parked]
  have pos : d.cu.pos = s.cu.pos.following s.sc.watchSet.length := by rw [h.stored]
  have parkedD : d.sc.opState = .parked := by rw [h.sc, parked]
  unfold afterConversion
  dsimp only
  rw [if_neg out, if_pos parkedD, origin, pos]
  simp only [decide_true, Bool.true_and, decide_eq_true_eq]

/-- Where the latch work, the stored result and the pass position of a completed conversion stand. -/
theorem State.CompletesParked.follows (h : s.CompletesParked c r d) (kept : d.WatchKept t)
    (cu : t.cu = { d.cu with inFlight := t.cu.inFlight, elapsedQ := t.cu.elapsedQ }) (ci : t.ci = d.ci) :
    s.keepsWatch t ∧ s.cu.stores t.cu r ∧ t.cu.pos = s.cu.pos.following s.sc.watchSet.length ∧ t.cu.runCount = 0 ∧
    (∀ ch : Fin 24, r.target ≠ .wired ch ∨ s.cu.latch[ch] = .armed → t.cu.latch[ch] = s.cu.latch[ch]) ∧
    ∀ ch : Fin 24, r.target = .wired ch → s.cu.latch[ch] = .set → s.ci.wired[ch].cfg.thresholds.Pairwise (· < ·) →
      s.ci.wired[ch].cfg.holds s.ci.wired[ch].confirmed →
      (t.cu.latch[ch] = .armed ↔
        ∃ k, t.ci.wired[ch].confirmed = some k ∧ s.ci.wired[ch].cfg.liesOn k s.cu.comparator[ch]) := by
  have latch : t.cu.latch = d.cu.latch := by rw [cu]
  refine ⟨(h.kept.trans kept).keepsWatch, ?_, ?_, ?_, fun ch rests => ?_, fun ch target set sorted held => ?_⟩
  · rw [cu, h.stored]
    exact store_stores s.cu r rfl rfl
  · rw [cu, h.stored]
  · rw [cu, h.stored]
  · rw [latch]
    exact h.stands ch rests
  · rw [latch, ci]
    exact h.rearms ch target set sorted held

/-- The conversion that the watch pass starts. -/
theorem startElement_starts (kept : s.WatchKept d) (sc : d.sc = s.sc) :
    (startElement spent d).cu.inFlight = some (s.begun (s.passTarget d.cu.pos) .pass false) ∧
      (startElement spent d).cu.elapsedQ = spent ∧ (startElement spent d).sc = s.sc := by
  have target : d.passTarget d.cu.pos = s.passTarget d.cu.pos :=
    passTarget_congr (by rw [sc]) (by rw [sc]) (by rw [kept.cu]) _
  rw [startElement_eq, target, begun_congr kept.ci.cfg]
  exact ⟨rfl, rfl, sc⟩

theorem State.Records.congr (h : s.Records d) (dm : t.dm = d.dm) (ci : t.ci = d.ci) : s.Records t := by
  unfold State.Records
  rw [dm, ci, recorded_congr ci]
  exact h

theorem State.LeafParked.congr {i : Fin 8} (h : d.LeafParked i u) (ci : t.ci = u.ci) (dm : t.dm = u.dm) (fm : t.fm = u.fm) :
    d.LeafParked i t where
  leaf := by rw [dm, h.leaf]
  ci := ci.trans h.ci
  derived w moves := by rw [dm, h.derived w moves]
  input changed := by rw [fm, h.input changed]
  fires watched fires nodup := by
    obtain ⟨nodup', entry⟩ := h.fires watched fires nodup
    exact ⟨fm ▸ nodup', fm ▸ entry⟩
  quiet := by
    rw [fm]
    exact h.quiet

/-! ## The end of a pass without ignition pending (R28) -/

theorem endWatchPass_eq (spent : Nat) (s : State) : endWatchPass spent s =
    if (forEach parkedEvaluate s).sc.ignPending then enterRun (forEach parkedEvaluate s)
    else if (forEach parkedEvaluate s).watchArmed then
      (forEach parkedEvaluate s).modSc fun c => { c with watch := .draining }
    else beginWatchPass spent (forEach parkedEvaluate s) := by
  delta endWatchPass
  with_reducible rfl

/-- What the end of a watch pass leaves: the leaves evaluated, then draining or another pass. -/
theorem endWatchPass_ends (h : s.CompletesParked c r d) (pos : d.cu.pos = .reference) (out : s.sc.ignPending = false) :
    ∃ u, (∀ i : Fin 8, d.LeafParked i u) ∧ u.cu = d.cu ∧ u.sc = s.sc ∧ u.ci = d.ci ∧ s.WatchKept u ∧ d.WatchKept u ∧
      endWatchPass spent d = if ∀ ch ∈ s.sc.watchSet, d.cu.latch[ch] = .armed
        then u.modSc fun c => { c with watch := .draining } else startElement spent u := by
  set u := forEach parkedEvaluate d with u_eq
  obtain ⟨only, -, -⟩ := forEach_parkedEvaluate_kept d
  have sc : u.sc = s.sc := only.sc.trans h.sc
  have cu : u.cu = d.cu := only.cu
  have kept := forEach_parkedEvaluate_watchKept d
  refine ⟨u, fun i => forEach_parkedEvaluate i d, cu, sc, only.ci, h.kept.trans kept, kept, ?_⟩
  have armed : u.watchArmed = true ↔ ∀ ch ∈ s.sc.watchSet, d.cu.latch[ch] = .armed := by
    rw [State.watchArmed, sc, cu, List.all_eq_true]
    simp only [decide_eq_true_eq]
  have again : beginWatchPass spent u = startElement spent u := by
    have stands : (u.modCu fun v => { v with pos := .reference }) = u := by
      show { u with cu := { u.cu with pos := .reference } } = u
      have : { u.cu with pos := .reference } = u.cu := by
        rw [cu, ← pos]
      rw [this]
    rw [beginWatchPass, stands]
  have stays : ¬ u.sc.ignPending = true := by rw [sc, out]; decide
  rw [endWatchPass_eq, ← u_eq, if_neg stays, again]
  exact if_congr armed rfl rfl

end

/-- The second half of O48: a conversion of the watch pass. -/
theorem watchConversionFollowed {s : State} {c : Conversion} {periods pin bias spent : Nat} (ends : s.gateEnds c spent)
    (origin : c.origin = .pass) (parked : s.sc.opState = .parked) (rest : ∀ g : Fin 8, s.ge[g].pointer = .unpowered) :
    let r := c.record periods pin bias
    let pos := s.cu.pos.following s.sc.watchSet.length
    let starts (t : State) : Prop :=
      t.cu.inFlight = some (s.begun (s.passTarget pos) .pass false) ∧ t.cu.elapsedQ = spent ∧ t.sc = s.sc
    pos ≠ .reference ∨ s.sc.ignPending = false →
    ∃ t, exec (.conversionComplete periods pin bias) s = .next t ∧ s.keepsWatch t ∧ s.cu.stores t.cu r ∧
      t.cu.pos = pos ∧ t.cu.runCount = 0 ∧
      (∀ ch : Fin 24, c.target ≠ .wired ch ∨ s.cu.latch[ch] = .armed → t.cu.latch[ch] = s.cu.latch[ch]) ∧
      (∀ ch : Fin 24, c.target = .wired ch → s.cu.latch[ch] = .set →
        s.ci.wired[ch].cfg.thresholds.Pairwise (· < ·) →
        (∀ i, s.ci.wired[ch].confirmed = some (.band i) → i ≤ s.ci.wired[ch].cfg.thresholds.length) →
        (t.cu.latch[ch] = .armed ↔
          ∃ k, t.ci.wired[ch].confirmed = some k ∧ s.ci.wired[ch].cfg.liesOn k s.cu.comparator[ch])) ∧
      (pos ≠ .reference → starts t ∧ ∀ i : Fin 8, s.leafRecords t i) ∧
      (pos = .reference → (∀ i : Fin 8, s.leafParks t i) ∧
        ((∀ ch ∈ s.sc.watchSet, t.cu.latch[ch] = .armed) →
          t.cu.inFlight = none ∧ t.sc = { s.sc with watch := .draining }) ∧
        ((∃ ch ∈ s.sc.watchSet, t.cu.latch[ch] = .set) → starts t)) := by
  intro r pos starts way
  have completes : s.CompletesParked c r (completeConversion c r s) := completeConversion_parked origin parked rest
  rw [exec_conversionComplete ends, afterConversion_parked completes parked origin]
  generalize completeConversion c (c.record periods pin bias) s = d at completes
  have posD : d.cu.pos = pos := by rw [completes.stored]
  by_cases ended : pos = .reference
  · rw [if_pos ended]
    obtain ⟨u, leaves, cu, sc, ci, kept, keptD, eq⟩ := endWatchPass_ends (spent := spent) completes (posD.trans ended)
      (way.resolve_left fun h => h ended)
    rw [eq]
    have parks {t : State} (ciT : t.ci = u.ci) (dm : t.dm = u.dm) (fm : t.fm = u.fm) (i : Fin 8) : s.leafParks t i :=
      leafParks_of_records completes.records completes.faults completes.sc ((leaves i).congr ciT dm fm)
    split
    · rename_i armed
      obtain ⟨keeps, stores, posT, run, stands, rearms⟩ := completes.follows
        (keptD.trans (draining_watchKept u)) (by rw [State.modSc_cu, cu]) ci
      have idle : u.cu.inFlight = none := by rw [cu, completes.stored]
      have drained : { u.sc with watch := .draining } = { s.sc with watch := .draining } := by rw [sc]
      refine ⟨_, rfl, keeps, stores, posT, run, stands, rearms, fun h => absurd ended h, fun _ =>
        ⟨parks rfl rfl rfl, fun _ => ⟨idle, drained⟩, fun ⟨ch, mem, set⟩ => ?_⟩⟩
      rw [State.modSc_cu, cu, armed ch mem] at set
      exact absurd set nofun
    · rename_i notArmed
      have only := startElement_only u spent
      obtain ⟨inFlight, elapsed, scT⟩ := startElement_starts (spent := spent) kept sc
      have cuT : (startElement spent u).cu = { d.cu with
          inFlight := (startElement spent u).cu.inFlight, elapsedQ := (startElement spent u).cu.elapsedQ } := by
        rw [startElement_eq, cu]
      obtain ⟨keeps, stores, posT, run, stands, rearms⟩ := completes.follows
        (keptD.trans (startElement_watchKept spent u)) cuT (only.ci.trans ci)
      rw [cu, posD] at inFlight
      have latch : (startElement spent u).cu.latch = d.cu.latch := by rw [cuT]
      refine ⟨_, rfl, keeps, stores, posT, run, stands, rearms, fun h => absurd ended h, fun _ =>
        ⟨parks only.ci only.dm only.fm, fun armed => ?_, fun _ => ⟨inFlight, elapsed, scT⟩⟩⟩
      rw [latch] at armed
      exact absurd armed notArmed
  · rw [if_neg ended]
    have only := startElement_only d spent
    have kept := startElement_watchKept spent d
    obtain ⟨inFlight, elapsed, sc⟩ := startElement_starts (spent := spent) completes.kept completes.sc
    obtain ⟨keeps, stores, posT, run, stands, rearms⟩ :=
      completes.follows kept (by rw [startElement_eq]) only.ci
    rw [posD] at inFlight
    exact ⟨_, rfl, keeps, stores, posT, run, stands, rearms,
      fun _ => ⟨⟨inFlight, elapsed, sc⟩, leafRecords_of_records (completes.records.congr only.dm only.ci)⟩,
      fun h => absurd h ended⟩

/-- Settles O48, from the equations of the three commands in RUN and SHUTDOWN and, in PARKED, from what a result hands to
leaves, latches and FM and what the evaluation of each leaf at the end of the pass adds. -/
theorem conversionsSettleGateAndFollow : Obligations.ConversionsSettleGateAndFollow := by
  unfold Obligations.ConversionsSettleGateAndFollow
  refine ⟨fun s => ?_, fun s c periods pin bias spent ends origin parked rest =>
    watchConversionFollowed ends origin parked rest⟩
  obtain ⟨pathReady, pathNotDue, gateOpen, notDue⟩ := conversionsFollow s
  exact ⟨pathReady, pathNotDue, gateOpen, notDue, fun c periods pin bias spent ends live armed =>
    conversionFollowed ends live armed⟩

end Sys2Proof.Machine
end

section
/-! PROOFS. The four ways into RUN (R18, R20, R23, R29). -/

namespace Sys2Proof.Machine

set_option Elab.async false

/-- RUN entry from a state whose link, leaf counts and ignition flags differ, and with a reply placed at its end, is RUN
entry all the same. -/
theorem State.EntersRun.ofKept {s t : State} {newCycle : Bool} {li : Link} {sc : Controller} {dm : DoorMon}
    (h : State.EntersRun { s with li := li, sc := sc, dm := dm } t newCycle) (service : sc.service = s.sc.service)
    (cycle : sc.cycle = s.sc.cycle) (seconds : sc.opSeconds = s.sc.opSeconds) (remainder : sc.remainderMs = s.sc.remainderMs)
    (stats : dm.stats = s.dm.stats) (cfg : ∀ l : Fin 8, dm.leaves[l].cfg = s.dm.leaves[l].cfg) (answer : Link) :
    s.EntersRun { t with li := answer } newCycle where
  run := by
    obtain ⟨opState, watch, counted, session⟩ := h.run
    exact ⟨opState, watch, counted, session.trans service⟩
  cycle := by
    rw [← cycle]
    exact h.cycle
  seconds := ⟨h.seconds.1.trans seconds, h.seconds.2.trans remainder⟩
  wired := h.wired
  net := h.net
  judged := h.judged
  gauges := h.gauges
  leaves l on := by
    have leaf := h.leaves l (by rw [cfg]; exact on)
    rw [cfg] at leaf
    exact leaf
  doors := by
    obtain ⟨kept, clear, unknown⟩ := h.doors
    refine ⟨kept.trans stats, clear.trans (forall_congr' fun l => ?_), fun l c on => unknown l c ?_⟩
    · rw [cfg]
    · rw [cfg, on]
  lamps := h.lamps
  tests := h.tests
  chime := h.chime
  floor := h.floor
  view := h.view
  inst := h.inst
  list := h.list
  path := h.path
  latched := h.latched
  queue := h.queue
  aged := h.aged
  index := h.index
  trackers := h.trackers
  kept := h.kept

theorem enterRun_sc {s : State} (off : s.sc.service = false) : (enterRun s).sc = s.sc.enterRun := by
  have blocks := (runBlocks_holds s).sc
  have only := runReports_only (b := s.runBlocks) (by rw [blocks]; exact off) s.cu.dropped
  rw [enterRun_eq]
  exact only.sc.trans blocks

/-- RUN entry from a state that differs in its link and its ignition and cycle flags alone. -/
theorem enterRun_enters_from {s : State} (li : Link) (sc : Controller) (off : s.sc.service = false)
    (service : sc.service = s.sc.service) (cycle : sc.cycle = s.sc.cycle) (seconds : sc.opSeconds = s.sc.opSeconds)
    (remainder : sc.remainderMs = s.sc.remainderMs) :
    s.EntersRun (enterRun { s with li := li, sc := sc }) sc.newCycle ∧
      (enterRun { s with li := li, sc := sc }).sc.ignOn = sc.ignOn ∧
      (enterRun { s with li := li, sc := sc }).li.transmitter = li.transmitter := by
  have enters := enterRun_enters (s := { s with li := li, sc := sc }) (service.trans off)
  have session := enterRun_sc (s := { s with li := li, sc := sc }) (service.trans off)
  have sent := (enterRun_only { s with li := li, sc := sc }).transmitter
  refine ⟨enters.ofKept service cycle seconds remainder rfl (fun _ => rfl) _, ?_, sent⟩
  rw [session]
  rfl

/-- Ignition ON in PARKED outside a running watch pass enters RUN. -/
theorem ignitionOn_enters {s : State} (parked : s.sc.opState = .parked) (quiet : s.sc.watch ≠ .waking) :
    ∃ pending : Bool, ignitionOn s = enterRun { s with
      li := s.li.place .ignition 0 (some 1), sc := { s.sc with ignOn := true, ignPending := pending } } := by
  set x := report .ignition 0 (val 1) (s.modSc fun c => { c with ignOn := true }) with x_eq
  have placed : x = { s with li := s.li.place .ignition 0 (some 1), sc := { s.sc with ignOn := true } } := rfl
  have marked : x.modSc (fun c => { c with ignPending := true }) =
      { s with li := s.li.place .ignition 0 (some 1), sc := { s.sc with ignOn := true, ignPending := true } } := rfl
  have state : x.sc.opState = .parked := parked
  cases watch : x.sc.watch with
  | quiet =>
    have way : ignitionOn s = enterRun x := by simp only [ignitionOn, ← x_eq, state, watch]
    exact ⟨s.sc.ignPending, way.trans (congrArg enterRun placed)⟩
  | waking => exact absurd watch quiet
  | settling =>
    have way : ignitionOn s = enterRun (x.modSc fun c => { c with ignPending := true }) := by
      simp only [ignitionOn, ← x_eq, state, watch]
    exact ⟨true, way.trans (congrArg enterRun marked)⟩
  | draining =>
    have way : ignitionOn s = enterRun (x.modSc fun c => { c with ignPending := true }) := by
      simp only [ignitionOn, ← x_eq, state, watch]
    exact ⟨true, way.trans (congrArg enterRun marked)⟩

/-- The end of a watch pass with ignition pending: the doors are evaluated, then RUN is entered (R29). -/
theorem watchPass_enters {s : State} {c : Conversion} {periods pin bias spent : Nat} (ends : s.gateEnds c spent)
    (origin : c.origin = .pass) (parked : s.sc.opState = .parked)
    (last : s.cu.pos.following s.sc.watchSet.length = .reference) (pending : s.sc.ignPending = true)
    (rest : ∀ g : Fin 8, s.ge[g].pointer = .unpowered) :
    ∃ u, exec (.conversionComplete periods pin bias) s = .next (enterRun u) ∧ s.WatchKept u ∧ u.sc = s.sc := by
  have completes : s.CompletesParked c (c.record periods pin bias) (completeConversion c (c.record periods pin bias) s) :=
    completeConversion_parked origin parked rest
  have evaluated := forEach_parkedEvaluate_kept (completeConversion c (c.record periods pin bias) s)
  have kept := completes.kept.trans (forEach_parkedEvaluate_watchKept _)
  refine ⟨forEach parkedEvaluate (completeConversion c (c.record periods pin bias) s), ?_, kept,
    evaluated.1.sc.trans completes.sc⟩
  have sc := evaluated.1.sc.trans completes.sc
  rw [exec_conversionComplete ends, afterConversion_parked completes parked origin, if_pos last, endWatchPass_eq,
    if_pos (by rw [sc, pending])]

/-- Settles O34: each way runs `enterRun`, which makes the RUN entry in every block (`enterRun_enters`), from a state that
differs in what RUN entry does not look at. -/
theorem everyRunEntrySettlesTheBlocks : Obligations.EveryRunEntrySettlesTheBlocks := by
  unfold Obligations.EveryRunEntrySettlesTheBlocks
  refine fun s off => ⟨fun tag taken config good on => ?_, fun raw ignOff steady parked outside => ?_,
    fun shutdown rest queue flight reclaim pending => ?_,
    fun c periods pin bias spent ends origin parked last pending rest => ?_⟩
  · have enters := enterRun_enters (s := fixConfiguration s) off
    refine ⟨(enterRun (fixConfiguration s)).replied 0x08 tag [], ?_, ?_, rfl⟩
    · rw [exec_start_startable tag taken config good, if_pos on, sendReply_positive]
    · exact State.EntersRun.ofKept (s := s) (li := (fixConfiguration s).li) (sc := (fixConfiguration s).sc)
        (dm := (fixConfiguration s).dm) enters rfl rfl rfl rfl rfl
        (fun l => by rw [fixConfiguration_leaf]) _
  · obtain ⟨flag, eq⟩ := ignitionOn_enters parked outside
    rw [exec_ignitionOn raw ignOff steady, eq]
    obtain ⟨enters, ignOn, sent⟩ := enterRun_enters_from (s := s) (s.li.place .ignition 0 (some 1))
      { s.sc with ignOn := true, ignPending := flag } off rfl rfl rfl rfl
    exact ⟨_, rfl, enters, ignOn, sent⟩
  · have completed : completeShutdown s = enterRun { s with li := s.li, sc := { s.sc with newCycle := true } } :=
      if_pos pending
    rw [exec_shutdownComplete shutdown rest queue flight reclaim, completed]
    obtain ⟨enters, -, sent⟩ := enterRun_enters_from (s := s) s.li { s.sc with newCycle := true } off rfl rfl rfl rfl
    exact ⟨_, rfl, enters, sent⟩
  · obtain ⟨u, eq, kept, sc⟩ := watchPass_enters (periods := periods) (pin := pin) (bias := bias) ends origin parked last
      pending rest
    have offU : u.sc.service = false := by rw [sc, off]
    have enters := enterRun_enters offU
    rw [sc] at enters
    refine ⟨u, enterRun u, eq, kept.keepsWatch, sc, enters, ?_, ?_⟩
    · rw [enterRun_sc offU, sc]
      rfl
    · rw [(enterRun_only u).transmitter, kept.only.transmitter]

end Sys2Proof.Machine
end

section
/-! PROOFS. Every command keeps the channels sound: statuses in step with kind, wiring class and timers, and REFERENCE_FAULT
with the failure count (R56, R58 to R60, R65, R70, R71). -/

namespace Sys2Proof.Machine

set_option Elab.async false

/-! ## One wired channel (R48, R55 to R60, R70) -/

theorem Wired.fresh_sound (cfg : WiredCfg) : (Wired.fresh cfg).sound := by
  unfold Wired.sound Wired.fresh
  split <;> simp_all

/-- The flags of a wired channel say nothing of its soundness. -/
theorem Wired.sound_congr {a b : Wired} (h : a.sound) (status : b.status = a.status) (wiring : b.wiring = a.wiring)
    (cfg : b.cfg = a.cfg) : b.sound := by
  unfold Wired.sound at *
  rw [status, wiring, cfg]
  exact h

/-- A judged channel is FAULT where its class is one, else INIT or VALID; it is never OFF (R56). -/
theorem Wired.judge_sound {w : Wired} (on : w.cfg.kind ≠ .off) : w.judge.sound := by
  unfold Wired.sound Wired.judge
  dsimp only
  split <;> rename_i fault
  · simp [on, fault]
  · split <;> simp_all

theorem takeValue_judged (w : Wired) (c : ReadingClass) (ohms : Nat) :
    (w.takeValue c ohms).status = w.status ∧ (w.takeValue c ohms).wiring = w.wiring := by
  unfold Wired.takeValue
  split <;> exact ⟨rfl, rfl⟩

theorem takeReading_judged (w : Wired) : w.takeReading.status = w.status ∧ w.takeReading.wiring = w.wiring := by
  unfold Wired.takeReading
  split
  · split <;> exact ⟨rfl, rfl⟩
  · exact ⟨rfl, rfl⟩

theorem Wired.interpret_sound {w : Wired} (on : w.cfg.kind ≠ .off) (r : ResultRecord) (rRef nRef : Nat) :
    (w.interpret r rRef nRef).sound := by
  have judged (c : ReadingClass) (ohms : Nat) : (((w.step c).judge.takeValue c ohms).takeReading).sound := by
    obtain ⟨status₁, wiring₁⟩ := takeValue_judged (w.step c).judge c ohms
    obtain ⟨status₂, wiring₂⟩ := takeReading_judged ((w.step c).judge.takeValue c ohms)
    refine Wired.sound_congr (Wired.judge_sound (w := w.step c) on) (status₂.trans status₁) (wiring₂.trans wiring₁) ?_
    rw [(takeReading_kept _).1, (takeValue_kept _ c ohms).1]
  exact Wired.sound_congr (judged _ _) rfl rfl rfl

theorem Wired.restart_sound {w : Wired} (on : w.cfg.kind ≠ .off) : w.restart.sound := by
  simp [Wired.sound, Wired.restart, on]

theorem Wired.runEntry_sound {w : Wired} (h : w.sound) : w.runEntry.sound := by
  unfold Wired.runEntry
  dsimp only
  split
  · exact Wired.sound_congr h rfl rfl rfl
  · exact Wired.restart_sound ‹_›

/-- VALID to HELD under a failing reference (R58). -/
theorem Wired.held_sound {w : Wired} (h : w.sound) :
    (if w.status = .valid then { w with status := .held } else w : Wired).sound := by
  split
  · unfold Wired.sound at *
    simp_all
  · exact h

/-! ## One network channel (R49, R64, R65, R70) -/

theorem Net.fresh_sound (cfg : NetCfg) : (Net.fresh cfg).sound := by
  unfold Net.sound Net.fresh
  cases cfg.network <;> simp

theorem Net.sound_limited {x : Net} (h : x.sound) (limited : Bool) : ({ x with limited } : Net).sound := h

theorem Net.post_sound {x : Net} (network : x.cfg.network = true) (v : Int) : (x.post v).sound := by
  simp [Net.sound, Net.post, network]

theorem Net.network_of_status {x : Net} (h : x.sound) (on : x.status ≠ .off) : x.cfg.network = true := by
  simpa using mt h.1.mpr on

theorem Net.stale_sound {x : Net} (h : x.sound) (valid : x.status = .valid) : x.stale.sound := by
  have network := Net.network_of_status h (by simp [valid])
  obtain ⟨-, -, -, init⟩ := h
  simp_all [Net.sound, Net.stale]

theorem Net.lose_sound {x : Net} (h : x.sound) (on : x.status ≠ .off) : x.lose.sound := by
  simp [Net.sound, Net.lose, Net.network_of_status h on]

theorem Net.tick_sound {x : Net} (h : x.sound) : x.tick.sound := by
  simpa [Net.sound, Net.tick, countDown] using h

theorem Net.runEntry_sound {x : Net} (h : x.sound) : x.runEntry.sound := by
  unfold Net.runEntry
  dsimp only
  split <;> rename_i network
  · simp [Net.sound, network]
  · exact h

/-! ## The channel table -/

/-- Sound channels under the failure count and REFERENCE_FAULT that stood. -/
theorem Interp.sound_congr {a b : Interp} (h : a.sound) (wired : ∀ ch : Fin 24, b.wired[ch].sound)
    (net : ∀ n : Fin 16, b.net[n].sound) (count : b.failCount = a.failCount) (fault : b.refFault = a.refFault) :
    b.sound :=
  ⟨wired, net, by rw [count]; exact h.2.2.1, by rw [count, fault]; exact h.2.2.2⟩

/-- What holds of every item and of the one changed holds of every item after the change. -/
theorem vmod_forall {α : Type} {n : Nat} {v : Vector α n} {i : Fin n} {f : α → α} {P : α → Prop} (h : ∀ j : Fin n, P v[j])
    (changed : P (f v[i])) (j : Fin n) : P (vmod v i f)[j] := by
  rw [vmod_get]
  split
  · exact changed
  · exact h j

theorem Interp.sound_wired {c : Interp} (h : c.sound) {ch : Fin 24} {f : Wired → Wired} (changed : (f c.wired[ch]).sound) :
    ({ c with wired := vmod c.wired ch f } : Interp).sound :=
  Interp.sound_congr h (vmod_forall h.1 changed) h.2.1 rfl rfl

theorem Interp.sound_net {c : Interp} (h : c.sound) {n : Fin 16} {f : Net → Net} (changed : (f c.net[n]).sound) :
    ({ c with net := vmod c.net n f } : Interp).sound :=
  Interp.sound_congr h h.1 (vmod_forall h.2.1 changed) rfl rfl

/-- A judgement's change of the wired channels keeps them sound where it does so for each non-OFF one. -/
theorem mapWired_sound {c : Interp} (h : c.sound) (on : Fin 24 → Bool) {f : Wired → Wired}
    (changed : ∀ w : Wired, w.sound → w.cfg.kind ≠ .off → (f w).sound) (ch : Fin 24) : (c.mapWired on f).wired[ch].sound := by
  rw [Interp.mapWired_get]
  split <;> rename_i off
  · exact h.1 ch
  · exact changed _ (h.1 ch) fun kind => off (.inl kind)

theorem Interp.runEntry_sound {c : Interp} (h : c.sound) : c.runEntry.sound :=
  ⟨fun ch => by
      show (vmap Wired.runEntry c.wired)[ch].sound
      rw [vmap_get]; exact Wired.runEntry_sound (h.1 ch),
    fun n => by
      show (vmap Net.runEntry c.net)[n].sound
      rw [vmap_get]; exact Net.runEntry_sound (h.2.1 n),
    Nat.zero_le 3, by simp [Interp.runEntry]⟩

theorem Interp.tick_sound {c : Interp} (h : c.sound) : c.tick.sound :=
  Interp.sound_congr h h.1 (fun n => by
    show (vmap Net.tick c.net)[n].sound
    rw [vmap_get]; exact Net.tick_sound (h.2.1 n)) rfl rfl

theorem Interp.motionStep_sound {c : Interp} (h : c.sound) (before : Interp) : (c.motionStep before).sound := by
  unfold Interp.motionStep
  split
  · split <;> exact h
  · exact h

/-! ## Operations -/

/-- The second state's channels are sound where the first's are. -/
def KeepsChannels (s t : State) : Prop := s.ci.sound → t.ci.sound

theorem KeepsChannels.refl (s : State) : KeepsChannels s s := id

theorem KeepsChannels.ofSame {s t : State} (h : t.ci = s.ci) : KeepsChannels s t := fun hs => by rwa [h]

/-- An operation that leaves the channels out keeps them. -/
theorem Only.keepsChannels {bs : List Part} {s t : State} (h : Only bs s t) (out : Part.ci ∉ bs := by decide) :
    KeepsChannels s t := .ofSame (h.ci out)

theorem KeepsChannels.trans {s t u : State} (h : KeepsChannels s t) (k : KeepsChannels t u) : KeepsChannels s u :=
  fun hs => k (h hs)

theorem KeepsChannels.ite {p : Prop} [Decidable p] {s t u : State} (h : KeepsChannels s t) (k : KeepsChannels s u) :
    KeepsChannels s (if p then t else u) := by
  split
  · exact h
  · exact k

section
variable (s : State)

/-! ### Results (R51 to R62) -/

theorem switchPrimary_keepsChannels (p : Fin 24) : KeepsChannels s (switchPrimary p s) := by
  obtain ⟨_, -, -, -, -, eq⟩ | ⟨-, eq⟩ := switchPrimary_cases p s
  · rw [eq]
    exact fun h => Interp.sound_wired h (Wired.sound_congr (h.1 p) rfl rfl rfl)
  · rw [eq]
    exact .refl s

theorem switchAround_keepsChannels (ch : Fin 24) : KeepsChannels s (switchAround ch s) := by
  unfold switchAround
  dsimp only
  split
  · exact (switchPrimary_keepsChannels s ch).trans (switchPrimary_keepsChannels _ _)
  · exact switchPrimary_keepsChannels s ch

theorem wiredResult_keepsChannels (ch : Fin 24) (r : ResultRecord) : KeepsChannels s (wiredResult ch r s) := by
  unfold wiredResult
  split <;> rename_i interprets
  · have interpreted : KeepsChannels s (s.modWired ch fun _ => s.ci.wired[ch].interpret r s.ci.rRef (s.ci.passCount.getD 0)) :=
      fun h => Interp.sound_wired h (Wired.interpret_sound interprets.2.1 _ _ _)
    exact ((interpreted.trans (reportWired_only _ _ _ _).keepsChannels).trans (switchAround_keepsChannels _ _)).trans
      (handChannels_nil_only _ _ _ _).keepsChannels
  · exact .refl s

theorem referenceGood_keepsChannels (count : Nat) : KeepsChannels s (referenceGood count s) := by
  have restarted : KeepsChannels s (s.modCi fun c =>
      { c.mapWired s.judges Wired.restart with refFault := false, failCount := 0 }) := fun h =>
    ⟨mapWired_sound h _ fun _ _ on => Wired.restart_sound on, h.2.1, Nat.zero_le 3, by simp⟩
  unfold referenceGood
  dsimp only
  split
  · exact (restarted.trans (report_only _ _ _ _).keepsChannels).trans (handChannels_nil_only _ _ _ _).keepsChannels
  · rename_i noFault
    split
    · exact fun h => ⟨h.1, h.2.1, Nat.zero_le 3, by simp [noFault]⟩
    · exact .refl s

theorem declareReferenceFault_keepsChannels (count : Nat) : KeepsChannels s (declareReferenceFault count s) := by
  have declared : KeepsChannels s (s.modCi fun c =>
      { c.mapWired s.judges fun w => { w with status := .fault, wiring := .undetermined } with
        refFault := true, failCount := 3 }) := fun h =>
    ⟨mapWired_sound h _ (f := fun w => { w with status := .fault, wiring := .undetermined })
      fun w _ on => by simp [Wired.sound, on], h.2.1, Nat.le_refl 3, by simp⟩
  exact (declared.trans (report_only _ _ _ _).keepsChannels).trans (handChannels_nil_only _ _ _ _).keepsChannels

theorem referenceFailed_keepsChannels (count : Nat) (few : s.ci.failCount < 2) :
    KeepsChannels s (referenceFailed count s) := by
  have reported : Only [.reports] s (if s.ci.failCount = 0 then report .referenceFailed 0 (val count) s else s) :=
    Only.ite (report_only _ _ _ _) (Only.refl _ _)
  unfold referenceFailed
  dsimp only
  refine KeepsChannels.trans (fun h => ?_) (handChannels_nil_only _ _ _ _).keepsChannels
  have noFault : s.ci.refFault = false := by simpa using mt h.2.2.2.mp (by omega)
  have held := mapWired_sound h (State.judges (if s.ci.failCount = 0 then report .referenceFailed 0 (val count) s else s))
    fun w hw _ => Wired.held_sound hw
  simp only [State.modCi_ci, reported.ci]
  refine ⟨held, h.2.1, ?_, ?_⟩
  · show s.ci.failCount + 1 ≤ 3
    omega
  · show s.ci.refFault = true ↔ s.ci.failCount + 1 = 3
    simp only [noFault, Bool.false_eq_true, false_iff]
    omega

theorem referenceResult_keepsChannels (r : ResultRecord) : KeepsChannels s (referenceResult r s) := by
  unfold referenceResult
  dsimp only
  refine KeepsChannels.trans (t := s.modCi fun c => { c with
    passCount := some r.count
    judgement := some (if decide (s.ci.inWindow r.count) && !r.saturated then .good else .failed) }) id ?_
  split
  · exact referenceGood_keepsChannels _ _
  · split
    · exact referenceFailed_keepsChannels _ _ ‹_›
    · exact .ite (.refl _) (declareReferenceFault_keepsChannels _ _)

theorem supplyResult_keepsChannels (r : ResultRecord) : KeepsChannels s (supplyResult r s) := by
  unfold supplyResult
  dsimp only
  split
  · exact id
  · refine KeepsChannels.trans (t := s.modCi fun c => { c with
      supplyMv := some (min 60000 (r.count * 4)), supply := s.ci.supply.after (min 60000 (r.count * 4)) }) id ?_
    refine Only.keepsChannels (bs := handParts) ((report_only _ _ _ _).mono.trans (Only.inFreeOrder ?_))
    intro u hu t
    simp only [List.mem_cons, Prod.mk.injEq, List.not_mem_nil, or_false] at hu
    rcases hu with ⟨-, rfl⟩ | ⟨-, rfl⟩ | ⟨-, rfl⟩
    · exact (gaugesTakeSupply_only _ _).mono
    · exact (handSupplyToWm_only _).mono
    · exact (handPresences_only _ _).mono

theorem takeResult_keepsChannels (r : ResultRecord) : KeepsChannels s (takeResult r s) := by
  unfold takeResult
  split
  · exact referenceResult_keepsChannels _ _
  · exact supplyResult_keepsChannels _ _
  · exact wiredResult_keepsChannels _ _ _

theorem completeConversion_keepsChannels (c : Conversion) (r : ResultRecord) :
    KeepsChannels s (completeConversion c r s) := by
  have taken : KeepsChannels s (inFreeOrder [(true, takeResult r), (c.hostMark, reportConverted r)]
      (s.modCu fun u => { u.store r with inFlight := none })) := by
    refine inFreeOrder_induct (KeepsChannels s) id fun u hu t ht => ?_
    simp only [List.mem_cons, Prod.mk.injEq, List.not_mem_nil, or_false] at hu
    rcases hu with ⟨-, rfl⟩ | ⟨-, rfl⟩
    · exact ht.trans (takeResult_keepsChannels _ _)
    · exact ht.trans (reportConverted_only _ _).keepsChannels
  exact (taken.trans (latchWorkOf_only _ _).keepsChannels).trans (modCu_only _ _).keepsChannels

/-! ### Network channels and motion (R64, R65, R67) -/

theorem handNetworks_keepsChannels (before : Interp) : KeepsChannels s (handNetworks before s) := by
  refine KeepsChannels.trans (t := s.modCi (·.motionStep before)) (fun h => Interp.motionStep_sound h before) ?_
  refine (handChannels_only _ _ _ _ _ ?_).keepsChannels
  intro u hu t
  simp only [List.mem_cons, Prod.mk.injEq, List.not_mem_nil, or_false] at hu
  obtain ⟨-, rfl⟩ := hu
  exact handMotion_only t

theorem netExpired_keepsChannels (n : Fin 16) {f : Net → Net} (kept : s.ci.net[n].sound → (f s.ci.net[n]).sound) :
    KeepsChannels s (netExpired n f s) := by
  refine KeepsChannels.trans (t := s.modNet n f) (fun h => Interp.sound_net h (kept (h.2.1 n))) ?_
  exact (reportNet_only _ _ _ _).keepsChannels.trans (handNetworks_keepsChannels _ _)

theorem standstillExpired_keepsChannels : KeepsChannels s (standstillExpired s) := by
  refine KeepsChannels.trans (t := s.modCi fun c => { c with motion := .standstill, standstillT := none }) id ?_
  exact .ite (.refl _) (handMotion_only _).keepsChannels

/-- A pair that is applied keeps the channels, where it is one for a channel of kind NETWORK. -/
theorem applyPost_keepsChannels {n : Fin 16} (network : s.ci.net[n].cfg.network = true) (v : Int) :
    KeepsChannels s (applyPost n v s) := by
  refine KeepsChannels.trans (t := s.modNet n fun _ => s.ci.net[n].post v)
    (fun h => Interp.sound_net h (Net.post_sound network v)) (Only.keepsChannels (bs := [.reports]) ?_)
  exact Only.trans (Only.ite (report_only _ _ _ _) (Only.refl _ _)) (reportNet_only _ _ _ _)

/-- Applying a pair changes no channel's configuration. -/
theorem applyPost_cfg (n m : Fin 16) (v : Int) : (applyPost n v s).ci.net[m].cfg = s.ci.net[m].cfg := by
  have only : Only [.reports] (s.modNet n fun _ => s.ci.net[n].post v) (applyPost n v s) :=
    Only.trans (Only.ite (report_only _ _ _ _) (Only.refl _ _)) (reportNet_only _ _ _ _)
  rw [only.ci, State.modNet_ci]
  dsimp only
  rw [vmod_get]
  split
  · rename_i same
    rw [← same]
    rfl
  · rfl

/-- The pairs of POST_NETWORK that are applied name channels of kind NETWORK (R64). -/
theorem postedPairs_network (c : Interp) (ps : List (Nat × Int)) : ∀ q ∈ postedPairs c ps, c.net[q.1].cfg.network = true := by
  induction ps with
  | nil => simp [postedPairs]
  | cons p ps ih =>
    obtain ⟨ch, v⟩ := p
    unfold postedPairs
    split
    · rename_i n _
      split <;> rename_i posted
      · rw [Bool.and_eq_true] at posted
        exact List.forall_mem_cons.mpr ⟨posted.1, ih⟩
      · exact ih
    · exact ih

theorem postNetwork_keepsChannels (ps : List (Fin 16 × Int)) (network : ∀ q ∈ ps, s.ci.net[q.1].cfg.network = true) :
    KeepsChannels s (postNetwork ps s) := by
  have applied : (∀ m : Fin 16, (ps.foldl (fun t p => applyPost p.1 p.2 t) s).ci.net[m].cfg = s.ci.net[m].cfg) ∧
      KeepsChannels s (ps.foldl (fun t p => applyPost p.1 p.2 t) s) := by
    refine foldl_induct (fun t => (∀ m : Fin 16, t.ci.net[m].cfg = s.ci.net[m].cfg) ∧ KeepsChannels s t) _ ps s
      ⟨fun _ => rfl, .refl s⟩ fun q hq t ht => ⟨fun m => (applyPost_cfg t q.1 m q.2).trans (ht.1 m), ?_⟩
    exact ht.2.trans (applyPost_keepsChannels t (by rw [ht.1]; exact network q hq) q.2)
  exact applied.2.trans (handNetworks_keepsChannels _ _)

/-! ### Changes of state (R20, R22, R24, R27) -/

theorem enterRun_keepsChannels : KeepsChannels s (enterRun s) := by
  refine KeepsChannels.trans (t := (s.modSc (·.enterRun)).modCi (·.runEntry)) (fun h => Interp.runEntry_sound h) ?_
  refine Only.keepsChannels (bs := doorParts ++ [.cu]) (Only.trans ?_ (Only.inFreeOrder ?_))
  · exact Only.andThen (Only.andThen (Only.andThen (Only.andThen (modGe_only _ _).mono (resetLeaves_only _))
      (faultsRunEntry_only _)) ((resetWarnings_only _).mono.andThen (alertsRunEntry_only _) (cs := [.ao]) (bs := [.wm, .ao])))
      (convRunEntry_only _)
  · intro u hu t
    simp only [List.mem_cons, Prod.mk.injEq, List.not_mem_nil, or_false] at hu
    rcases hu with ⟨-, rfl⟩ | ⟨-, rfl⟩ | ⟨-, rfl⟩ | ⟨-, rfl⟩ | ⟨-, rfl⟩
    · exact (reportState_only _).mono
    · exact (reportDropped_only _ _).mono
    · exact Only.forEach fun g t => (gaugeRunEntry_only t g).mono
    · exact (deriveDoorsClear_only _).mono
    · exact (faultsAndWarnings_only _).mono

theorem enterParked_keepsChannels : KeepsChannels s (enterParked s) :=
  KeepsChannels.trans (t := s.parkedBlocks) id (enterParked_settles s).keepsChannels

theorem enterShutdown_keepsChannels : KeepsChannels s (enterShutdown s) := by
  refine KeepsChannels.trans (t := stopStandstill ((queueCycle (endSession .shutdown s)).modSc fun c =>
    { c with cycleInterval := 0, ignPending := false, opState := .shutdown })) ?_ ?_
  · exact ((endSession_only s _).keepsChannels).trans id
  · refine Only.keepsChannels (bs := doorParts) (Only.trans ((queueDoorStats_only _).mono.andThen (warningsLeaveRun_only _))
      (Only.inFreeOrder ?_))
    intro u hu t
    simp only [List.mem_cons, Prod.mk.injEq, List.not_mem_nil, or_false] at hu
    rcases hu with ⟨-, rfl⟩ | ⟨-, rfl⟩ | ⟨-, rfl⟩
    · exact (reportState_only _).mono
    · exact Only.forEach fun g t => (parkGauge_only t g).mono
    · exact (setDoorsClear_only _ _).mono

theorem stopFromRun_keepsChannels : KeepsChannels s (stopFromRun s) := by
  refine KeepsChannels.trans (t := stopStandstill ((endSession .stop s).modSc fun c => { c with opState := .config })) ?_ ?_
  · exact ((endSession_only s _).keepsChannels).trans id
  · refine Only.keepsChannels (bs := .cu :: doorParts) (Only.trans (((stopDoorTimers_only _).mono.andThen (convStop_only _)).andThen
      (warningsLeaveRun_only _)) (Only.inFreeOrder ?_))
    intro u hu t
    simp only [List.mem_cons, Prod.mk.injEq, List.not_mem_nil, or_false] at hu
    rcases hu with ⟨-, rfl⟩ | ⟨-, rfl⟩ | ⟨-, rfl⟩ | ⟨-, rfl⟩
    · exact (reportState_only _).mono
    · exact (reportDropped_only _ _).mono
    · exact Only.forEach fun g t => (stopGauge_only t g).mono
    · exact (setDoorsClear_only _ _).mono

theorem stopFromParked_ci : (stopFromParked s).ci = s.ci := by
  unfold stopFromParked
  refine (Only.inFreeOrder (bs := [.reports, .free]) ?_).ci
  intro u hu t
  simp only [List.mem_cons, Prod.mk.injEq, List.not_mem_nil, or_false] at hu
  rcases hu with ⟨-, rfl⟩ | ⟨-, rfl⟩
  · exact (reportState_only _).mono
  · exact (reportDropped_only _ _).mono

theorem completeShutdown_keepsChannels : KeepsChannels s (completeShutdown s) := by
  refine KeepsChannels.trans (modSc_only s fun c => { c with newCycle := true }).keepsChannels ?_
  unfold completeShutdown
  dsimp only
  split
  · exact enterRun_keepsChannels _
  · exact enterParked_keepsChannels _

theorem ignitionOn_keepsChannels : KeepsChannels s (ignitionOn s) := by
  refine KeepsChannels.trans ((modSc_only s fun c => { c with ignOn := true }).mono.andThen
    (report_only _ .ignition 0 (val 1)) (bs := [.sc, .service, .reports])).keepsChannels ?_
  unfold ignitionOn
  dsimp only
  split
  · exact (modSc_only _ _).keepsChannels
  · exact enterRun_keepsChannels _
  · exact (modSc_only _ _).keepsChannels
  · exact (modSc_only _ _).keepsChannels.trans (enterRun_keepsChannels _)
  · exact .refl _

theorem ignitionOff_keepsChannels : KeepsChannels s (ignitionOff s) := by
  refine KeepsChannels.trans ((modSc_only s fun c => { c with ignOn := false }).mono.andThen
    (report_only _ .ignition 0 (val 0)) (bs := [.sc, .service, .reports])).keepsChannels ?_
  unfold ignitionOff
  dsimp only
  split
  · exact enterShutdown_keepsChannels _
  · exact (modSc_only _ _).keepsChannels
  · exact (modSc_only _ _).keepsChannels
  · exact .refl _

theorem endWatchPass_keepsChannels (spent : Nat) : KeepsChannels s (endWatchPass spent s) := by
  have evaluated : KeepsChannels s (forEach parkedEvaluate s) := (forEach_parkedEvaluate_kept s).1.keepsChannels
  refine evaluated.trans ?_
  rw [endWatchPass_eq]
  split
  · exact enterRun_keepsChannels _
  · split
    · exact (modSc_only _ _).keepsChannels
    · exact (beginWatchPass_only _ _).keepsChannels

theorem afterConversion_keepsChannels (o : Origin) (spent : Nat) : KeepsChannels s (afterConversion o spent s) := by
  unfold afterConversion
  dsimp only
  split
  · exact (chooseConversion_only _ _ _).keepsChannels
  · split
    · exact .ite (endWatchPass_keepsChannels _ _) (startElement_only _ _).keepsChannels
    · exact .refl s

theorem latchSet_ci (ch : Fin 24) : (latchSet ch s).ci = s.ci := by
  unfold latchSet
  dsimp only
  split <;> rfl

theorem loopChanges_ci (ch : Fin 24) (ohms : Nat) : (loopChanges ch ohms s).ci = s.ci := by
  unfold loopChanges
  dsimp only
  split
  · rfl
  · split
    · rfl
    · split
      · exact latchSet_ci _ _
      · rfl

theorem rebuilt_ci : (rebuilt s).ci = s.ci := by
  have handed (t : State) (f : List FaultEntry) : Only [.fm, .jc, .reports] t (reportState (jcChoose (takeEntries f t))) :=
    Only.trans (Only.trans (takeEntries_only t f).mono (jcChoose_only _).mono) (reportState_only _).mono
  exact (handed _ _).ci

theorem tickAll_keepsChannels : KeepsChannels s (tickAll s) := by
  have ticked : (tickAll s).ci = if decide s.inRun then s.ci.tick else s.ci := by
    unfold tickAll
    dsimp only
    split <;> split <;> simp_all
  intro h
  rw [ticked]
  split
  · exact Interp.tick_sound h
  · exact h

end

/-! ## Answers of the owners (R6, R7) -/

/-- An owner's answer keeps the channels. -/
def AnswerKeepsChannels (s : State) (a : Answer) : Prop := KeepsChannels s a.1

namespace AnswerKeepsChannels

variable {s t : State}

theorem same {r : Reply} : AnswerKeepsChannels s (s, r) := id

theorem ofOnly {bs : List Part} {r : Reply} (h : Only bs s t) (out : Part.ci ∉ bs := by decide) :
    AnswerKeepsChannels s (t, r) := h.keepsChannels out

theorem ite {p : Prop} [Decidable p] {a b : Answer} (ha : AnswerKeepsChannels s a) (hb : AnswerKeepsChannels s b) :
    AnswerKeepsChannels s (if p then a else b) := by
  split
  · exact ha
  · exact hb

theorem parsed {α : Type} {x : Option α} {f : α → Answer} (h : ∀ a, AnswerKeepsChannels s (f a)) :
    AnswerKeepsChannels s (Machine.parsed x f s) := by
  unfold Machine.parsed
  split
  · exact h _
  · exact same

end AnswerKeepsChannels

section
variable (p : List Byte) (s : State)

theorem start_keepsChannels : AnswerKeepsChannels s (start s) := by
  unfold start
  split
  · exact .same
  · exact KeepsChannels.trans (t := fixConfiguration s) id (.ite (enterRun_keepsChannels _) (enterParked_keepsChannels _))

theorem stop_keepsChannels : AnswerKeepsChannels s (stop s) :=
  .ite (KeepsChannels.ofSame (stopFromParked_ci s)) (.ite .same (stopFromRun_keepsChannels s))

theorem setReference_keepsChannels : AnswerKeepsChannels s (setReference p s) :=
  .ite (fun h => Interp.sound_congr h h.1 h.2.1 rfl rfl) .same

theorem putWired_keepsChannels (ch : Fin 24) (cfg : WiredCfg) : AnswerKeepsChannels s (putWired ch cfg s) :=
  KeepsChannels.trans (t := s.modWired ch fun _ => Wired.fresh cfg) (fun h => Interp.sound_wired h (Wired.fresh_sound cfg))
    (setPresence_only _ _ _).keepsChannels

theorem setWired_keepsChannels (ch : Fin 24) : AnswerKeepsChannels s (setWired ch p s) := by
  unfold setWired
  split
  · exact .same
  · exact putWired_keepsChannels s ch _
  · exact .ite .same (.parsed fun cfg => putWired_keepsChannels s ch cfg)

theorem putNet_keepsChannels (n : Fin 16) (cfg : NetCfg) : AnswerKeepsChannels s (putNet n cfg s) :=
  KeepsChannels.trans (t := s.modNet n fun _ => Net.fresh cfg) (fun h => Interp.sound_net h (Net.fresh_sound cfg))
    (setPresence_only _ _ _).keepsChannels

theorem setNet_keepsChannels (n : Fin 16) : AnswerKeepsChannels s (setNet n p s) :=
  .ite (putNet_keepsChannels s n _) (.ite .same (.ite .same (.ite .same (putNet_keepsChannels s n _))))

theorem setChannel_keepsChannels : AnswerKeepsChannels s (setChannel p s) := by
  unfold setChannel
  split
  · exact .same
  · split
    · exact setWired_keepsChannels p s _
    · exact setNet_keepsChannels p s _
    · exact .same

theorem setMotion_keepsChannels : AnswerKeepsChannels s (setMotion p s) :=
  .parsed fun _ => (fun h => Interp.sound_congr h h.1 h.2.1 rfl rfl : KeepsChannels s _)

theorem postRequest_keepsChannels : AnswerKeepsChannels s (postRequest p s) :=
  postNetwork_keepsChannels s _ (postedPairs_network _ _)

theorem clearLimits_keepsChannels : AnswerKeepsChannels s (clearLimits p s) := fun h =>
  Interp.sound_congr h
    (fun ch => by
      show (vmap (fun w : Wired => { w with limited := false }) s.ci.wired)[ch].sound
      rw [vmap_get]; exact Wired.sound_congr (h.1 ch) rfl rfl rfl)
    (fun n => by
      show (vmap (fun n : Net => { n with limited := false }) s.ci.net)[n].sound
      rw [vmap_get]; exact Net.sound_limited (h.2.1 n) false) rfl rfl

theorem setWarning_keepsChannels : AnswerKeepsChannels s (setWarning p s) :=
  .parsed fun _ => .ite (.ofOnly (modWm_only s _)) (.parsed fun _ => .ite .same (.parsed fun _ => .ofOnly (modWm_only s _)))

theorem putLeaf_keepsChannels (i : Fin 8) (cfg : Option LeafCfg) : AnswerKeepsChannels s (putLeaf i cfg s) := by
  have reported : Only [.reports, .dm] s (if s.dm.leaves[i].state = .unknown then s.modLeaf i fun _ => Leaf.fresh cfg
      else report .leafState i.val (val LeafState.unknown.code) (s.modLeaf i fun _ => Leaf.fresh cfg)) :=
    Only.ite (modLeaf_only s _ _).mono ((modLeaf_only s _ _).mono.andThen (report_only _ _ _ _))
  have doorways (ws : List (Fin 4)) (t : State) : Only [.reports, .dm] t
      (forEach (fun w t => if w ∈ ws then deriveDoorway w t else t) t) :=
    Only.forEach fun w t => Only.ite (deriveDoorway_only t w) (Only.refl _ _)
  exact (reported.keepsChannels.trans (doorways _ _).keepsChannels).trans
    ((setPresence_only _ _ _).trans (setPresence_only _ _ _)).keepsChannels

theorem setLeaf_keepsChannels : AnswerKeepsChannels s (setLeaf p s) :=
  .parsed fun i => .ite (putLeaf_keepsChannels s i _) (.parsed fun _ => putLeaf_keepsChannels s i _)

theorem acknowledged_keepsChannels (w : Fin 64) (d : WarnDef) : AnswerKeepsChannels s (acknowledged w d s) :=
  (acknowledge_only s w d).keepsChannels

theorem acknowledgeRequest_keepsChannels : AnswerKeepsChannels s (acknowledgeRequest p s) := by
  unfold acknowledgeRequest
  split
  · split
    · split
      · exact acknowledged_keepsChannels s _ _
      · exact .same
    · exact .same
  · refine .parsed fun w => ?_
    split
    · exact acknowledged_keepsChannels s _ _
    · exact .same

theorem gaugeTest_keepsChannels : AnswerKeepsChannels s (gaugeTest p s) := by
  refine .parsed fun g => .parsed fun r => .ite .same ?_
  split
  · exact .same
  · exact .same
  · exact .same
  · exact .ofOnly (startGaugeTest_only s g _)

theorem writeVehicleId_keepsChannels : AnswerKeepsChannels s (writeVehicleId p s) :=
  .ite .same (.ite .same (.ite .same (.ofOnly ((modJc_only s _).trans (queueRecord_only _ _)))))

end

/-- Every owner keeps the channels. -/
theorem act_keepsChannels (p : List Byte) (s : State) : ∀ q ∈ allRequests, AnswerKeepsChannels s (q.act p s) := by
  simp only [allRequests, List.cons_append, List.nil_append, List.forall_mem_cons, List.not_mem_nil, false_implies,
    implies_true, and_true]
  refine ⟨.same, .same, .ite .same id, id, start_keepsChannels s, stop_keepsChannels s, setReference_keepsChannels p s,
    setChannel_keepsChannels p s, .parsed fun _ => .ofOnly (modCu_only s _), setMotion_keepsChannels p s,
    .parsed fun _ => .ite (.ofOnly (modGauge_only s _ _)) (.parsed fun _ => .ofOnly (modGauge_only s _ _)),
    .parsed fun _ => .ofOnly (modGauge_only s _ _), setWarning_keepsChannels p s,
    .parsed fun _ => .parsed fun _ => .ofOnly (modAo_only s _),
    .parsed fun _ => .ite (.ofOnly (modAo_only s _)) (.parsed fun _ => .ofOnly (modAo_only s _)), setLeaf_keepsChannels p s,
    .parsed fun _ => .ofOnly (modFm_only s _), postRequest_keepsChannels p s,
    .parsed fun _ => .ite .same (.ofOnly (queuePrio_only s _ _)), .ite .same .same, .ite .same .same, .ite .same .same, .same,
    .ite .same .same, .ite .same .same, acknowledgeRequest_keepsChannels p s,
    .parsed fun _ => .ofOnly ((modWm_only s _).mono.andThen (takeFloor_only _) (bs := [.wm, .ao])),
    clearLimits_keepsChannels p s, .ite .same (.ite .same id), .ite (.ofOnly (endSession_only s _)) .same,
    gaugeTest_keepsChannels p s, .parsed fun _ => .ofOnly ((modAo_only s _).trans (refreshLamps_only _)),
    .parsed fun _ => .ite .same (.ofOnly ((modAo_only s _).trans (deriveChime_only _))),
    .ite (.ofOnly (endTests_only s _)) .same, .parsed fun _ => .same, .ite .same (.ofOnly (clearFaults_only s)),
    .parsed fun _ => .ofOnly ((modDm_only s _).mono.andThen (queueDoorStats_only _) (bs := [.dm, .jc])),
    writeVehicleId_keepsChannels p s⟩

/-- A request row keeps the channels: it is discarded or refused with the state as it was, or its owner acts. -/
theorem serve_keepsChannels {q : Request} (hq : q ∈ allRequests) (tag : Byte) (p : List Byte) (s : State) :
    KeepsChannels s (q.serve tag p s) := by
  obtain ⟨-, e⟩ | ⟨-, -, e⟩ | ⟨-, -, -, e⟩ | ⟨-, -, -, -, -, e⟩ | ⟨-, -, -, -, e⟩ := q.serve_cases tag p s
  · rw [e]; exact .refl s
  · rw [e]; exact id
  · rw [e]; exact id
  · rw [e]; exact id
  · rw [e]; exact act_keepsChannels p s q hq

/-! ## Frames and characters (R2 to R5) -/

theorem frameComplete_keepsChannels (chars : List Byte) (s : State) : KeepsChannels s (frameComplete chars s) := by
  have hunting : KeepsChannels s s.hunting := id
  obtain ⟨-, e⟩ | ⟨taken, kind, tag, p, good, e⟩ := frameComplete_cases chars s
  · exact e ▸ hunting
  · rw [e]
    obtain ⟨reason, e⟩ | ⟨q, hq, -, e⟩ := frameAnswer_cases kind tag p good (s := s.hunting) taken
    · exact e ▸ id
    · exact e ▸ hunting.trans (serve_keepsChannels hq _ _ _)

theorem characterArrives_keepsChannels (b : Byte) (s : State) : KeepsChannels s (characterArrives b s) := by
  have hunts (t : State) : KeepsChannels t (huntSync b t) := .ite id (.refl t)
  unfold characterArrives
  split
  · exact hunts s
  · split
    · exact hunts (abandonFrame s)
    · unfold assemble
      dsimp only
      split
      · exact id
      · split
        · exact frameComplete_keepsChannels _ s
        · exact id

/-! ## Every command -/

/-- A command's outcome is a next state whose channels are sound where they were before. -/
def OutcomeKeepsChannels (s : State) (o : Host.Outcome State Fault Refusal) : Prop := ∃ t, o = .next t ∧ KeepsChannels s t

namespace OutcomeKeepsChannels

variable {s t : State}

theorem next (h : KeepsChannels s t) : OutcomeKeepsChannels s (.next t) := ⟨t, rfl, h⟩

theorem idle (s : State) : OutcomeKeepsChannels s (.next s) := next (.refl s)

/-- A command acts where its event can occur, which its proof may use. -/
theorem acts {p : Bool} (h : p = true → KeepsChannels s t) : OutcomeKeepsChannels s (nextIf p t s) := by
  refine next ?_
  split
  · exact h ‹_›
  · exact .refl s

theorem actsOnly {p : Bool} {bs : List Part} (h : Only bs s t) (out : Part.ci ∉ bs := by decide) :
    OutcomeKeepsChannels s (nextIf p t s) := acts fun _ => h.keepsChannels out

end OutcomeKeepsChannels

section
variable (s : State)

theorem gateOpen_keepsChannels : OutcomeKeepsChannels s (execGateOpen s) := by
  unfold execGateOpen
  split
  · exact .actsOnly (modCu_only s _)
  · exact .idle s

theorem conversionComplete_keepsChannels (periods pin bias : Nat) :
    OutcomeKeepsChannels s (execConversionComplete periods pin bias s) := by
  unfold execConversionComplete
  split
  · exact .acts fun _ => (completeConversion_keepsChannels s _ _).trans (afterConversion_keepsChannels _ _ _)
  · exact .idle s

theorem gaugeUpdate_keepsChannels (g : Fin 8) : OutcomeKeepsChannels s (execGaugeUpdate g s) := by
  unfold execGaugeUpdate
  split
  · exact .actsOnly ((modGauge_only s g _).mono.trans (pointerUpdate_only _ _ _))
  · exact .idle s

/-! ### Network timers (R65): each acts in its own status alone -/

theorem freshnessExpiry_keepsChannels (n : Fin 16) : OutcomeKeepsChannels s (execFreshnessExpiry n s) :=
  .acts fun due => netExpired_keepsChannels s n fun h => Net.stale_sound h (by simp_all)

theorem lostTimerExpiry_keepsChannels (n : Fin 16) : OutcomeKeepsChannels s (execLostTimerExpiry n s) :=
  .acts fun due => netExpired_keepsChannels s n fun h => Net.lose_sound h (by simp_all)

theorem initialTimerExpiry_keepsChannels (n : Fin 16) : OutcomeKeepsChannels s (execInitialTimerExpiry n s) :=
  .acts fun due => netExpired_keepsChannels s n fun h => Net.lose_sound h (by simp_all)

/-! ### The array -/

theorem recordProgramComplete_keepsChannels : OutcomeKeepsChannels s (execRecordProgramComplete s) := by
  unfold execRecordProgramComplete
  split
  · exact .actsOnly (modJc_only s _)
  · exact .actsOnly (modJc_only s _)
  · exact .actsOnly (recordDone_only s _)
  · exact .actsOnly (recordDone_only s _)
  · exact .idle s

theorem headerProgramComplete_keepsChannels : OutcomeKeepsChannels s (execHeaderProgramComplete s) := by
  unfold execHeaderProgramComplete
  split
  · exact .actsOnly (modJc_only s _)
  · exact .actsOnly (headerDone_only s _)
  · exact .idle s

theorem eraseComplete_keepsChannels : OutcomeKeepsChannels s (execEraseComplete s) := by
  unfold execEraseComplete
  split
  · exact .actsOnly (eraseDone_only s _)
  · exact .idle s

theorem rowProgramComplete_keepsChannels : OutcomeKeepsChannels s (execRowProgramComplete s) := by
  unfold execRowProgramComplete
  split
  · exact .actsOnly (modJc_only s _)
  · exact .acts fun _ => .ofSame rfl
  · exact .idle s

end

/-- A request command keeps the channels. -/
theorem request_keepsChannels {i : Instr} {kind : Nat} {tag : Byte} {p : List Byte} (s : State)
    (h : i.asRequest = some (kind, tag, p)) : OutcomeKeepsChannels s (exec i s) := by
  obtain ⟨q, e, -, hq⟩ := exec_eq_serve h
  exact ⟨_, e s, serve_keepsChannels hq tag p s⟩

/-- Every command answers a next state, and keeps the channels sound. -/
theorem exec_keepsChannels (c : Instr) (s : State) : OutcomeKeepsChannels s (exec c s) := by
  cases c with
  | hardReset lrateHigh => exact .next fun _ => reset_interpSound
  | softRestart lrateHigh => exact .acts fun _ _ => reset_interpSound
  | rebuildComplete => exact .acts fun _ => .ofSame (rebuilt_ci s)
  | lineFault | frameGapTimeout => exact .acts fun _ => .ofSame rfl
  | frameComplete chars => exact .acts fun _ => frameComplete_keepsChannels chars s
  | replySent => exact .next (.ofSame rfl)
  | characterReceived b => exact .next (characterArrives_keepsChannels b s)
  | tripClockTick => exact .next (tickAll_keepsChannels s)
  | ignChange high => exact .actsOnly (modSc_only s _)
  | ignitionOnConfirmed => exact .acts fun _ => ignitionOn_keepsChannels s
  | ignitionOffConfirmed => exact .acts fun _ => ignitionOff_keepsChannels s
  | shutdownComplete => exact .acts fun _ => completeShutdown_keepsChannels s
  | operatingSecond => exact .actsOnly (operatingSecond_only s)
  | comparatorEvent ch ohms => exact .next (.ofSame (loopChanges_ci s ch ohms))
  | watchSettleEnd => exact .acts fun _ => .ofSame rfl
  | watchQuiet => exact .acts fun _ => .ofSame rfl
  | pathReady => exact .actsOnly ((modCu_only s _).trans (startElement_only _ _))
  | gateOpen => exact gateOpen_keepsChannels s
  | conversionComplete periods pin bias => exact conversionComplete_keepsChannels s periods pin bias
  | freshnessExpiry n => exact freshnessExpiry_keepsChannels s n
  | lostTimerExpiry n => exact lostTimerExpiry_keepsChannels s n
  | initialTimerExpiry n => exact initialTimerExpiry_keepsChannels s n
  | standstillTimerExpiry => exact .acts fun _ => standstillExpired_keepsChannels s
  | gaugeUpdate g => exact gaugeUpdate_keepsChannels s g
  | delayExpiry w | reAlert w => exact .actsOnly (enterActive_only s w)
  | envelopeStep => exact .actsOnly (generatorStep_only s _)
  | bulbCheckEnd => exact .actsOnly ((modAo_only s _).trans (refreshLamps_only _))
  | travelTimerExpiry i => exact .actsOnly (travelExpired_only s i)
  | lockTimerExpiry i => exact .actsOnly (lockExpired_only s i)
  | confirmTimerExpiry src => exact .actsOnly (confirmExpired_only s src)
  | recordProgramComplete => exact recordProgramComplete_keepsChannels s
  | headerProgramComplete => exact headerProgramComplete_keepsChannels s
  | eraseComplete => exact eraseComplete_keepsChannels s
  | rowProgramComplete => exact rowProgramComplete_keepsChannels s
  | identify | getState | fetchReports | restart | start | stop | setReference | setChannel | setScan | setMotion
  | setGauge | setCurve | setWarning | setLamp | setPattern | setLeaf | setFreeze | postNetwork | requestConversion
  | readChannels | readGauges | readWarnings | readDoors | readFaults | readDoorStats | acknowledge | setChimeFloor
  | clearLimits | enterService | leaveService | gaugeTest | lampTest | chimeTest | endTests | readRaw | clearFaults
  | resetDoorStats | writeVehicleId => exact request_keepsChannels s rfl

/-- Settles O8: a step runs the front command, and every command keeps the channels; what changes them is a result, a posted
value, a network timer, a setting, a tick, or a change of state. -/
theorem stepsKeepChannelStatuses : Obligations.StepsKeepChannelStatuses := by
  intro s t sound stepped
  unfold step at stepped
  split at stepped
  · cases stepped
    exact sound.channels
  · rename_i c rest _
    obtain ⟨u, e, kept⟩ := exec_keepsChannels c { s with pending := rest }
    rw [e] at stepped
    cases stepped
    exact kept sound.channels

end Sys2Proof.Machine
end

section
/-! PROOFS. The settings of CONFIG: how a field that a host writes reads back, and SET_REFERENCE, SET_MOTION, SET_LAMP and
SET_PATTERN (R50, R66, R113, R114, R191, R192). -/

namespace Sys2Proof.Machine

set_option Elab.async false

/-! ## Fields read back (R192) -/

theorem byte_toNat {n : Nat} (h : n < 256) : (BitVec.ofNat 8 n).toNat = n := by
  simp only [BitVec.toNat_ofNat]
  omega

/-- A byte is the one its value spells. -/
theorem byte_of_toNat {b : Byte} {n : Nat} (h : b.toNat = n) : b = BitVec.ofNat 8 n := by
  rw [← h, BitVec.ofNat_toNat, BitVec.setWidth_eq]

theorem u8_lt (p : List Byte) (i : Nat) : u8 p i < 256 := (p.getD i 0).isLt

/-- The two bytes of a word, low byte first. -/
theorem word_toNat {n : Nat} (h : n < 65536) :
    (BitVec.ofNat 8 n).toNat + 256 * (BitVec.ofNat 8 (n / 256)).toNat = n := by
  simp only [BitVec.toNat_ofNat]
  omega

theorem item_val {n : Nat} (i : Fin n) : item? n i.val = some i := dif_pos i.isLt

theorem item_none {n b : Nat} (h : n ≤ b) : item? n b = none := dif_neg (Nat.not_lt.mpr h)

/-- The first byte of a payload that begins with an item number. -/
theorem item_b1 {n : Nat} (small : n ≤ 256) (i : Fin n) (rest : List Byte) : item? n (u8 (b1 i.val ++ rest) 0) = some i := by
  have first : u8 (b1 i.val ++ rest) 0 = i.val := byte_toNat (by omega)
  rw [first, item_val]

theorem parsed_some {α : Type} {x : Option α} {a : α} (h : x = some a) (f : α → Answer) (s : State) : parsed x f s = f a := by
  rw [h]
  rfl

theorem parsed_none {α : Type} {x : Option α} (h : x = none) (f : α → Answer) (s : State) :
    parsed x f s = refuse .badValue s := by
  rw [h]
  rfl

/-! ## Configuration requests in CONFIG -/

/-- A configuration request of an accepted length runs its owner. -/
theorem serve_config (code : Nat) {lengths : Nat → Bool} (act : List Byte → State → Answer) (tag : Byte) {p : List Byte}
    {s : State} (taken : s.taking) (config : s.sc.opState = .config) (len : lengths p.length = true) :
    (configRequest code lengths act).serve tag p s = sendReply code tag (act p s).2 (act p s).1 :=
  (configRequest code lengths act).serve_accepted tag taken len (decide_eq_true config) nofun

section
variable {s : State} (tag : Byte) (taken : s.taking) (config : s.sc.opState = .config)
include taken config

/-! ## SET_REFERENCE (R50) -/

theorem exec_setReference (r lo hi : Nat) : exec (.setReference tag (referencePayload r lo hi)) s =
    .next (sendReply 0x10 tag (setReference (referencePayload r lo hi) s).2 (setReference (referencePayload r lo hi) s).1) :=
  congrArg _ (serve_config 0x10 setReference tag taken config rfl)

/-! ## SET_MOTION (R66) -/

theorem exec_setMotion (ch mv st : Byte) : exec (.setMotion tag [ch, mv, st]) s =
    .next (sendReply 0x13 tag (setMotion [ch, mv, st] s).2 (setMotion [ch, mv, st] s).1) :=
  congrArg _ (serve_config 0x13 setMotion tag taken config rfl)

/-! ## SET_LAMP (R113) -/

theorem exec_setLamp (a b : Byte) : exec (.setLamp tag [a, b]) s =
    .next (sendReply 0x17 tag (setLamp [a, b] s).2 (setLamp [a, b] s).1) :=
  congrArg _ (serve_config 0x17 setLamp tag taken config rfl)

/-! ## SET_PATTERN (R114) -/

theorem exec_setPattern {p : List Byte} (len : p.length = 1 ∨ p.length = 4) : exec (.setPattern tag p) s =
    .next (sendReply 0x18 tag (setPattern p s).2 (setPattern p s).1) :=
  congrArg _ (serve_config 0x18 setPattern tag taken config (by simpa [lengthIn] using len))

end

section
variable (s : State)

/-- The checks of SET_REFERENCE, on the three fields. -/
theorem setReference_eq {r lo hi : Nat} (hr : r < 65536) (hlo : lo < 65536) (hhi : hi < 65536) :
    setReference (referencePayload r lo hi) s =
      if 500 ≤ r ∧ r ≤ 5000 ∧ 4 ≤ lo ∧ lo < hi ∧ hi ≤ 65534 then
        done { s with ci := { s.ci with rRef := r, nRefMin := lo, nRefMax := hi } }
      else refuse .badValue s := by
  have first : u16 (referencePayload r lo hi) 0 = r := word_toNat hr
  have second : u16 (referencePayload r lo hi) 2 = lo := word_toNat hlo
  have third : u16 (referencePayload r lo hi) 4 = hi := word_toNat hhi
  have checks : (within 500 5000 r && within 4 65534 lo && within 4 65534 hi && decide (lo < hi)) = true ↔
      500 ≤ r ∧ r ≤ 5000 ∧ 4 ≤ lo ∧ lo < hi ∧ hi ≤ 65534 := by
    simp only [Bool.and_eq_true, decide_eq_true_eq]
    omega
  unfold setReference
  simp only [first, second, third, checks]
  rfl

theorem setMotion_stores {ch mv st : Byte} (hch : ch.toNat < 40) (lo : 5 ≤ mv.toNat) (hi : mv.toNat ≤ 100)
    (stop : st.toNat ≤ 99) : setMotion [ch, mv, st] s =
      done { s with ci := { s.ci with motionChannel := some ⟨ch.toNat, hch⟩, moveThr := mv.toNat, stopThr := st.toNat } } := by
  have admitted : (within 5 100 mv.toNat && within 0 99 st.toNat) = true := by
    simp only [Bool.and_eq_true, decide_eq_true_eq]
    omega
  refine parsed_some ?_ _ s
  show check (within 5 100 mv.toNat && within 0 99 st.toNat) (item? 40 ch.toNat) = _
  rw [check, if_pos admitted, item?, dif_pos hch]

theorem setMotion_refused {ch mv st : Byte}
    (bad : 40 ≤ ch.toNat ∨ mv.toNat < 5 ∨ 100 < mv.toNat ∨ 99 < st.toNat) :
    setMotion [ch, mv, st] s = refuse .badValue s := by
  refine parsed_none ?_ _ s
  show check (within 5 100 mv.toNat && within 0 99 st.toNat) (item? 40 ch.toNat) = none
  unfold check
  split <;> rename_i good
  · simp only [Bool.and_eq_true, decide_eq_true_eq] at good
    exact item_none (by omega)
  · rfl

theorem setLamp_stores (l : Fin 24) (use : Bool) : setLamp (b1 l.val ++ b1 (if use then 1 else 0)) s =
    done { s with ao := { s.ao with used := s.ao.used.set l use } } := by
  have flag : boolOf (u8 (b1 l.val ++ b1 (if use then 1 else 0)) 1) = some use := by cases use <;> rfl
  unfold setLamp
  rw [parsed_some (item_b1 (by decide) l _), parsed_some flag]
  rfl

theorem setLamp_refused {a b : Byte} (bad : 24 ≤ a.toNat ∨ 2 ≤ b.toNat) : setLamp [a, b] s = refuse .badValue s := by
  show parsed (item? 24 a.toNat) (fun l => parsed (boolOf b.toNat) _ s) s = _
  by_cases ha : a.toNat < 24
  · rw [parsed_some (a := ⟨a.toNat, ha⟩) (dif_pos ha)]
    refine parsed_none ?_ _ s
    match h : b.toNat with
    | 0 | 1 => omega
    | n + 2 => rfl
  · exact parsed_none (item_none (by omega)) _ s

theorem setPattern_stores (n : Fin 8) {q : Pattern} (rep : q.rep ≤ 15) : setPattern (q.payload n) s =
    done { s with ao := { s.ao with patterns := s.ao.patterns.set n (some q) } } := by
  have tone : Tone.ofCode (u8 (q.payload n) 1) = some q.tone := by
    show Tone.ofCode (BitVec.ofNat 8 q.tone.code).toNat = _
    cases q.tone <;> rfl
  have env : envOfByte (u8 (q.payload n) 2) = some q.env := by
    have := q.env.isLt
    show envOfByte (BitVec.ofNat 8 q.env.toNat).toNat = _
    rw [byte_toNat (by omega), envOfByte, if_pos (by omega), BitVec.ofNat_toNat, BitVec.setWidth_eq]
  have repeats : u8 (q.payload n) 3 = q.rep := byte_toNat (by omega)
  have carried : pattern (q.payload n) = some q := by
    simp [pattern, tone, env, repeats, check, within, rep]
  have first : item? 8 (u8 (q.payload n) 0) = some n := item_b1 (by decide) n _
  have full : (q.payload n).length ≠ 1 := (by decide : (4 : Nat) ≠ 1)
  unfold setPattern
  rw [parsed_some first, if_neg full, parsed_some carried]
  rfl

theorem setPattern_clears (n : Fin 8) : setPattern (b1 n.val) s =
    done { s with ao := { s.ao with patterns := s.ao.patterns.set n none } } := by
  have first : item? 8 (u8 (b1 n.val) 0) = some n := item_b1 (by decide) n []
  have short : (b1 n.val).length = 1 := rfl
  unfold setPattern
  rw [parsed_some first, if_pos short]
  rfl

theorem setPattern_unnumbered {b : Byte} (bad : 8 ≤ b.toNat) (rest : List Byte) :
    setPattern (b :: rest) s = refuse .badValue s := parsed_none (item_none bad) _ s

/-- A full form with a field out of range carries no pattern. -/
theorem pattern_none {n tone env rep : Byte} (bad : 2 ≤ tone.toNat ∨ 16 ≤ env.toNat ∨ 16 ≤ rep.toNat) :
    pattern [n, tone, env, rep] = none := by
  show (do
    let tone ← Tone.ofCode tone.toNat
    let env ← envOfByte env.toNat
    check (within 0 15 rep.toNat) (some { tone, env, rep := rep.toNat : Pattern })) = none
  match ht : tone.toNat with
  | 0 | 1 =>
    by_cases he : env.toNat < 16
    · simp [Tone.ofCode, envOfByte, check, he, show 15 < rep.toNat by omega]
    · simp [Tone.ofCode, envOfByte, he]
  | k + 2 => rfl

theorem setPattern_refused {n tone env rep : Byte}
    (bad : 8 ≤ n.toNat ∨ 2 ≤ tone.toNat ∨ 16 ≤ env.toNat ∨ 16 ≤ rep.toNat) :
    setPattern [n, tone, env, rep] s = refuse .badValue s := by
  by_cases hn : n.toNat < 8
  · have first : item? 8 (u8 [n, tone, env, rep] 0) = some ⟨n.toNat, hn⟩ := dif_pos hn
    have full : [n, tone, env, rep].length ≠ 1 := (by decide : (4 : Nat) ≠ 1)
    unfold setPattern
    rw [parsed_some first, if_neg full]
    exact parsed_none (pattern_none (by omega)) _ s
  · exact setPattern_unnumbered s (by omega) _

end

/-- Settles O26: each owner's checks on the fields that the payload carries. -/
theorem smallSettingsAreStored : Obligations.SmallSettingsAreStored := by
  refine ⟨fun s tag r lo hi taken config hr hlo hhi => ⟨fun good => ?_, fun bad => ?_⟩,
    fun s tag ch mv st taken config => ⟨fun h lo hi stop => ?_, fun bad => ?_⟩,
    fun s tag taken config => ⟨fun l use => ?_, fun a b bad => ?_, fun n q rep => ?_, fun n => ?_, fun b bad => ?_,
      fun n tone env rep bad => ?_⟩⟩
  · rw [exec_setReference tag taken config, setReference_eq s hr hlo hhi, if_pos good]
    rfl
  · rw [exec_setReference tag taken config, setReference_eq s hr hlo hhi, if_neg bad]
    rfl
  · rw [exec_setMotion tag taken config, setMotion_stores s h lo hi stop]
    rfl
  · rw [exec_setMotion tag taken config, setMotion_refused s bad]
    rfl
  · refine (exec_setLamp tag taken config _ _).trans ?_
    rw [show [BitVec.ofNat 8 l.val, BitVec.ofNat 8 (if use then 1 else 0)] = b1 l.val ++ b1 (if use then 1 else 0) from rfl,
      setLamp_stores]
    rfl
  · rw [exec_setLamp tag taken config, setLamp_refused s bad]
    rfl
  · rw [exec_setPattern tag taken config (.inr rfl), setPattern_stores s n rep]
    rfl
  · rw [exec_setPattern tag taken config (.inl rfl), setPattern_clears]
    rfl
  · rw [exec_setPattern tag taken config (.inl rfl), setPattern_unnumbered s bad]
    rfl
  · rw [exec_setPattern tag taken config (.inr rfl), setPattern_refused s bad]
    rfl

end Sys2Proof.Machine
end

section
/-! PROOFS. SET_CHANNEL (R48, R49): a payload is the configuration it carries, byte for byte. -/

namespace Sys2Proof.Machine

set_option Elab.async false

/-! ## A payload as the fields it carries (R192) -/

theorem u8_lt_length {p : List Byte} {i : Nat} (h : i < p.length) : p[i]? = some (BitVec.ofNat 8 (u8 p i)) := by
  rw [u8, List.getD_eq_getElem _ _ h, List.getElem?_eq_getElem h, BitVec.ofNat_toNat, BitVec.setWidth_eq]

/-- The bytes of a payload from offset `o` are its one-byte fields. -/
theorem flatMap_b1_read (p : List Byte) (o m : Nat) (h : o + m ≤ p.length) :
    ((List.range m).flatMap fun i => b1 (u8 p (o + i))) = (p.drop o).take m := by
  induction m with
  | zero => simp
  | succ m ih =>
    have next : (p.drop o)[m]? = some (BitVec.ofNat 8 (u8 p (o + m))) := by
      rw [List.getElem?_drop, u8_lt_length (by omega)]
    rw [List.range_succ, List.flatMap_append, ih (by omega), List.take_add_one, next]
    simp [b1]

/-- A four-byte field is its four bytes. -/
theorem b4_u32 (p : List Byte) (o : Nat) :
    b4 (u32 p o) = b1 (u8 p o) ++ b1 (u8 p (o + 1)) ++ b1 (u8 p (o + 2)) ++ b1 (u8 p (o + 3)) := by
  have h0 := u8_lt p o
  have h1 := u8_lt p (o + 1)
  have h2 := u8_lt p (o + 2)
  have h3 := u8_lt p (o + 3)
  have low (a b : Nat) (h : a % 256 = b % 256) : BitVec.ofNat 8 a = BitVec.ofNat 8 b := by
    apply BitVec.eq_of_toNat_eq
    simpa using h
  simp only [b4, b2, b1, u32, u16, List.cons_append, List.nil_append, Nat.add_assoc, Nat.reduceAdd] at *
  congr 1
  · exact low _ _ (by omega)
  congr 1
  · exact low _ _ (by omega)
  congr 1
  · exact low _ _ (by omega)
  congr 1
  exact low _ _ (by omega)

theorem flatMap_b4_read (p : List Byte) (o n : Nat) (h : o + 4 * n ≤ p.length) :
    ((List.range n).flatMap fun i => b4 (u32 p (o + 4 * i))) = (p.drop o).take (4 * n) := by
  induction n with
  | zero => simp
  | succ n ih =>
    have last : b4 (u32 p (o + 4 * n)) = (p.drop (o + 4 * n)).take 4 := by
      rw [← flatMap_b1_read p (o + 4 * n) 4 (by omega), b4_u32]
      rfl
    rw [List.range_succ, List.flatMap_append, ih (by omega), List.flatMap_singleton, last, Nat.mul_succ, List.take_add,
      List.drop_drop]

/-- A four-byte field that a host writes reads back. -/
theorem long_toNat {t : Nat} (h : t < 2 ^ 32) (rest : List Byte) : u32 (b4 t ++ rest) 0 = t := by
  show (BitVec.ofNat 8 t).toNat + 256 * (BitVec.ofNat 8 (t / 256)).toNat +
    65536 * ((BitVec.ofNat 8 (t / 65536)).toNat + 256 * (BitVec.ofNat 8 (t / 65536 / 256)).toNat) = t
  simp only [BitVec.toNat_ofNat]
  omega

theorem u8_append (p q : List Byte) (i : Nat) : u8 (p ++ q) (p.length + i) = u8 q i := by
  simp [u8, List.getElem?_append_right]

theorem u32_append (p q : List Byte) (i : Nat) : u32 (p ++ q) (p.length + i) = u32 q i := by
  simp only [u32, u16, Nat.add_assoc, u8_append]

/-- A list of four-byte fields reads back. -/
theorem longs_read (pre post : List Byte) {ts : List Nat} (small : ∀ t ∈ ts, t < 2 ^ 32) :
    (List.range ts.length).map (fun i => u32 (pre ++ ts.flatMap b4 ++ post) (pre.length + 4 * i)) = ts := by
  induction ts generalizing pre with
  | nil => rfl
  | cons t ts ih =>
    have head : u32 (pre ++ (t :: ts).flatMap b4 ++ post) (pre.length + 4 * 0) = t := by
      rw [List.append_assoc, u32_append, List.flatMap_cons, List.append_assoc]
      exact long_toNat (small t List.mem_cons_self) _
    have tail := ih (pre ++ b4 t) fun x hx => small x (List.mem_cons_of_mem _ hx)
    have len : (pre ++ b4 t).length = pre.length + 4 := by simp [b4, b2]
    rw [len, List.append_assoc pre] at tail
    rw [List.length_cons, List.range_succ_eq_map, List.map_cons, List.map_map, head]
    congr 1
    refine Eq.trans (List.map_congr_left fun i _ => ?_) tail
    simp only [Function.comp, Nat.mul_succ, List.flatMap_cons]
    congr 1
    omega

/-- A list of one-byte fields reads back. -/
theorem bytes_read (pre post : List Byte) {α : Type} (code : α → Nat) (ms : List α) (small : ∀ m : α, code m < 256) :
    (List.range ms.length).map (fun i => u8 (pre ++ (ms.flatMap fun m => b1 (code m)) ++ post) (pre.length + i)) =
      ms.map code := by
  induction ms generalizing pre with
  | nil => rfl
  | cons m ms ih =>
    have head : u8 (pre ++ ((m :: ms).flatMap fun m => b1 (code m)) ++ post) (pre.length + 0) = code m := by
      rw [List.append_assoc, u8_append]
      exact byte_toNat (small m)
    have tail := ih (pre ++ b1 (code m))
    have len : (pre ++ b1 (code m)).length = pre.length + 1 := by simp [b1]
    rw [len, List.append_assoc pre] at tail
    rw [List.length_cons, List.range_succ_eq_map, List.map_cons, List.map_map, head, List.map_cons]
    congr 1
    refine Eq.trans (List.map_congr_left fun i _ => ?_) tail
    simp only [Function.comp, List.flatMap_cons, List.append_assoc]
    congr 1
    omega

/-- A list of optional readings is present where every reading is. -/
theorem mapM_eq_some {α β : Type} {f : α → Option β} {l : List α} {ms : List β} :
    l.mapM f = some ms ↔ l.map f = ms.map some := by
  induction l generalizing ms with
  | nil => cases ms <;> simp
  | cons a l ih =>
    rw [List.mapM_cons, List.map_cons]
    cases ha : f a with
    | none => cases ms <;> simp
    | some b =>
      cases ms with
      | nil => cases l.mapM f <;> simp
      | cons m ms =>
        simp only [List.map_cons, List.cons.injEq, ← ih]
        cases l.mapM f <;> simp

/-! ## The codes of R189 -/

theorem ofCode_code (m : BandMeaning) : BandMeaning.ofCode m.code = some m := by cases m <;> rfl

theorem code_of_ofCode {n : Nat} {m : BandMeaning} (h : BandMeaning.ofCode n = some m) : m.code = n := by
  match n with
  | 0 | 1 | 2 | 3 | 4 => cases h; rfl
  | n + 5 => exact nomatch h

theorem bandCode_lt (m : BandMeaning) : m.code < 256 := by cases m <;> decide

theorem boolOf_eq_some {n : Nat} {b : Bool} : boolOf n = some b ↔ n = bit b := by
  match n with
  | 0 | 1 => cases b <;> simp [boolOf, bit]
  | n + 2 => cases b <;> simp [boolOf, bit]

theorem item_eq_some {n b : Nat} {i : Fin n} : item? n b = some i ↔ b = i.val := by
  unfold item?
  split
  · simp [Fin.ext_iff]
  · simp only [reduceCtorEq, false_iff]
    omega

theorem optItem_eq_some {n b : Nat} (small : n < 255) {x : Option (Fin n)} :
    optItem? n b = some x ↔ b = (x.map (·.val)).getD 0xFF := by
  unfold optItem?
  split <;> rename_i absent
  · cases x with
    | none => simp [absent]
    | some i => simp only [Option.some.injEq, reduceCtorEq, Option.map_some, Option.getD_some, false_iff]; omega
  · cases x with
    | none => simp [absent]
    | some i => simp [item_eq_some]

theorem wiredKind_ofCode {n : Nat} {k : WiredKind} : WiredKind.ofCode n = some k ↔ n = k.code := by
  match n with
  | 0 | 1 | 2 => cases k <;> simp [WiredKind.ofCode, WiredKind.code]
  | n + 3 => cases k <;> simp [WiredKind.ofCode, WiredKind.code]

/-! ## A wired configuration (R48) -/

/-- The meanings of a payload are present where every code is that of a meaning the kind may carry. -/
theorem channelMeanings_eq_some {k : WiredKind} {p : List Byte} {ms : List BandMeaning} :
    channelMeanings k p = some ms ↔ (∀ m ∈ ms, k.allows m = true) ∧
      (List.range (u8 p 10 + 1)).map (fun i => u8 p (11 + 4 * u8 p 10 + i)) = ms.map BandMeaning.code := by
  have each (n : Nat) (m : BandMeaning) :
      ((BandMeaning.ofCode n).bind fun m => if k.allows m then some m else none) = some m ↔
        k.allows m = true ∧ n = m.code := by
    constructor
    · intro h
      obtain ⟨x, hx, hm⟩ := Option.bind_eq_some_iff.mp h
      split at hm
      · cases hm
        exact ⟨‹_›, (code_of_ofCode hx).symm⟩
      · exact nomatch hm
    · rintro ⟨allowed, rfl⟩
      simp [ofCode_code, allowed]
  rw [channelMeanings, mapM_eq_some]
  generalize List.range (u8 p 10 + 1) = l
  induction l generalizing ms with
  | nil => cases ms <;> simp
  | cons i l ih =>
    cases ms with
    | nil => simp
    | cons m ms =>
      simp only [List.map_cons, List.cons.injEq, each, ih, List.forall_mem_cons]
      tauto

/-- The fields of a payload that carries a wired configuration (R48), each by its offset, with the checks on them. -/
structure WiredCfg.Carried (c : WiredCfg) (ch : Fin 24) (p : List Byte) : Prop where
  gate : u8 p 2 = c.gate.val
  confirm : u8 p 3 = c.confirm
  watch : u8 p 4 = bit c.watch
  watchThr : u32 p 5 = c.watchThr
  partner : u8 p 9 = (c.partner.map (·.val)).getD 0xFF
  thresholds : channelThresholds p = c.thresholds
  meanings : (List.range (u8 p 10 + 1)).map (fun i => u8 p (11 + 4 * u8 p 10 + i)) = c.meanings.map BandMeaning.code
  allowed : ∀ m ∈ c.meanings, c.kind.allows m = true
  confirms : 1 ≤ c.confirm ∧ c.confirm ≤ 7
  small : ∀ t ∈ c.thresholds, t ≤ 200000
  watches : c.watch = true → c.kind = .switch ∧ 1 ≤ c.watchThr ∧ c.watchThr ≤ 200000
  other : c.partner ≠ some ch

theorem wiredConfig_eq_some {ch : Fin 24} {k : WiredKind} {p : List Byte} {c : WiredCfg} :
    wiredConfig ch k p = some c ↔ c.kind = k ∧ c.Carried ch p := by
  have checks (c : WiredCfg) : (within 1 7 c.confirm && c.thresholds.all (fun t => decide (t ≤ 200000))
      && (!c.watch || (decide (c.kind = .switch) && within 1 200000 c.watchThr)) && decide (c.partner ≠ some ch)) = true ↔
      (1 ≤ c.confirm ∧ c.confirm ≤ 7) ∧ (∀ t ∈ c.thresholds, t ≤ 200000) ∧
        (c.watch = true → c.kind = .switch ∧ 1 ≤ c.watchThr ∧ c.watchThr ≤ 200000) ∧ c.partner ≠ some ch := by
    cases c.watch <;> simp [and_assoc]
  constructor
  · intro h
    simp only [wiredConfig, Option.bind_eq_bind, Option.bind_eq_some_iff, item_eq_some, channelMeanings_eq_some,
      boolOf_eq_some, optItem_eq_some (by decide : 24 < 255), check] at h
    obtain ⟨gate, hgate, ms, ⟨allowed, meanings⟩, watch, hwatch, partner, hpartner, h⟩ := h
    split at h
    · rename_i good
      cases h
      obtain ⟨confirms, small, watches, other⟩ := (checks
        ⟨k, gate, u8 p 3, channelThresholds p, ms, watch, u32 p 5, partner⟩).mp good
      exact ⟨rfl, ⟨hgate, rfl, hwatch, rfl, hpartner, rfl, meanings, allowed, confirms, small, watches, other⟩⟩
    · exact nomatch h
  · rintro ⟨rfl, h⟩
    have good := (checks c).mpr ⟨h.confirms, h.small, h.watches, h.other⟩
    have read : channelMeanings c.kind p = some c.meanings := channelMeanings_eq_some.mpr ⟨h.allowed, h.meanings⟩
    have gate : item? 4 (u8 p 2) = some c.gate := item_eq_some.mpr h.gate
    have watch : boolOf (u8 p 4) = some c.watch := boolOf_eq_some.mpr h.watch
    have partner : optItem? 24 (u8 p 9) = some c.partner := (optItem_eq_some (by decide)).mpr h.partner
    simp only [wiredConfig, gate, read, watch, partner, h.confirm, h.watchThr, h.thresholds, Option.bind_eq_bind,
      Option.bind_some, check, good, if_true]

section
variable {c : WiredCfg} {ch : Fin 24}

/-- The eleven bytes of a wired configuration before its band table. -/
def WiredCfg.fixedBytes (ch : Fin 24) (c : WiredCfg) : List Byte :=
  b1 ch.val ++ b1 c.kind.code ++ b1 c.gate.val ++ b1 c.confirm ++ b1 (bit c.watch) ++ b4 c.watchThr
    ++ optByte c.partner ++ b1 c.thresholds.length

theorem WiredCfg.payload_eq (ch : Fin 24) (c : WiredCfg) :
    c.payload ch = c.fixedBytes ch ++ c.thresholds.flatMap b4 ++ c.meanings.flatMap fun m => b1 m.code := rfl

theorem WiredCfg.fixedBytes_length (ch : Fin 24) (c : WiredCfg) : (c.fixedBytes ch).length = 11 := rfl

theorem flatMap_b4_length (ts : List Nat) : (ts.flatMap b4).length = 4 * ts.length := by
  induction ts with
  | nil => rfl
  | cons t ts ih =>
    rw [List.flatMap_cons, List.length_append, ih, List.length_cons, b4]
    simp [b2]
    omega

theorem flatMap_b1_length {α : Type} (f : α → Nat) (ms : List α) : (ms.flatMap fun m => b1 (f m)).length = ms.length := by
  induction ms with
  | nil => rfl
  | cons m ms ih => simp [b1]

theorem WiredCfg.payload_length (ch : Fin 24) (c : WiredCfg) :
    (c.payload ch).length = 11 + 4 * c.thresholds.length + c.meanings.length := by
  rw [WiredCfg.payload_eq, List.length_append, List.length_append, fixedBytes_length, flatMap_b4_length, flatMap_b1_length]

/-- An admitted configuration reads back from its payload, field by field. -/
theorem WiredCfg.admitted_carried (h : c.admitted ch) : c.Carried ch (c.payload ch) := by
  obtain ⟨-, confirm, confirmed, few, small, table, allowed, threshold, watches, other⟩ := h
  have count : u8 (c.payload ch) 10 = c.thresholds.length := byte_toNat (by omega)
  have atTable : (c.fixedBytes ch ++ c.thresholds.flatMap b4).length = 11 + 4 * c.thresholds.length := by
    rw [List.length_append, fixedBytes_length, flatMap_b4_length]
  refine ⟨byte_toNat (by omega), byte_toNat (by omega), ?_, ?_, ?_, ?_, ?_, allowed, ⟨confirm, confirmed⟩, small, watches, other⟩
  · exact byte_toNat (n := bit c.watch) (by cases c.watch <;> decide)
  · exact long_toNat threshold []
  · exact byte_toNat (by cases c.partner <;> simp; omega)
  · rw [channelThresholds, count, WiredCfg.payload_eq]
    exact longs_read (c.fixedBytes ch) _ fun t ht => by have := small t ht; omega
  · rw [count, ← table, WiredCfg.payload_eq, ← atTable]
    simpa using bytes_read (c.fixedBytes ch ++ c.thresholds.flatMap b4) [] BandMeaning.code c.meanings bandCode_lt

/-- A payload that carries a configuration is that configuration's. -/
theorem WiredCfg.Carried.payload {p : List Byte} (h : c.Carried ch p) (channel : u8 p 0 = ch.val) (kind : u8 p 1 = c.kind.code)
    (filled : p.length = 12 + 5 * u8 p 10) : c.payload ch = p := by
  have count : c.thresholds.length = u8 p 10 := by rw [← h.thresholds, channelThresholds]; simp
  have head : c.fixedBytes ch = p.take 11 := by
    have bytes := flatMap_b1_read p 0 11 (by omega)
    rw [List.drop_zero] at bytes
    rw [← bytes, WiredCfg.fixedBytes, ← channel, ← kind, ← h.gate, ← h.confirm, ← h.watch, ← h.watchThr, optByte, ← h.partner,
      count, b4_u32]
    rfl
  have thresholds : c.thresholds.flatMap b4 = (p.drop 11).take (4 * u8 p 10) := by
    rw [← h.thresholds, channelThresholds, List.flatMap_map, flatMap_b4_read p 11 _ (by omega)]
  have meanings : (c.meanings.flatMap fun m => b1 m.code) = (p.drop (11 + 4 * u8 p 10)).take (u8 p 10 + 1) := by
    rw [← flatMap_b1_read p _ _ (by omega), ← List.flatMap_map BandMeaning.code b1, ← h.meanings, List.flatMap_map]
  have whole : (p.drop (11 + 4 * u8 p 10)).take (u8 p 10 + 1) = (p.drop 11).drop (4 * u8 p 10) := by
    rw [List.take_of_length_le (by rw [List.length_drop]; omega), List.drop_drop]
  rw [WiredCfg.payload_eq, head, thresholds, meanings, whole, List.append_assoc, List.take_append_drop,
    List.take_append_drop]

theorem WiredCfg.Carried.admitted {p : List Byte} (h : c.Carried ch p) (on : c.kind ≠ .off) (few : u8 p 10 ≤ 5) :
    c.admitted ch := by
  have count : c.thresholds.length = u8 p 10 := by rw [← h.thresholds, channelThresholds]; simp
  have table : c.meanings.length = u8 p 10 + 1 := by simpa using (congrArg List.length h.meanings).symm
  have wide : c.watchThr < 2 ^ 32 := by
    have h5 := u8_lt p 5
    have h6 := u8_lt p (5 + 1)
    have h7 := u8_lt p (5 + 2)
    have h8 := u8_lt p (5 + 2 + 1)
    rw [← h.watchThr]
    simp only [u32, u16]
    omega
  exact ⟨on, h.confirms.1, h.confirms.2, by omega, h.small, by omega, h.allowed, wide, h.watches, h.other⟩

end

/-! ## SET_CHANNEL of a wired channel (R48) -/

section
variable (s : State)

/-- A payload whose first byte is a wired channel's number goes to that channel. -/
theorem setChannel_wired {p : List Byte} {ch : Fin 24} (channel : u8 p 0 = ch.val) : setChannel p s = setWired ch p s := by
  have found : item? 40 (u8 p 0) = some (wiredCh ch) := item_eq_some.mpr channel
  have wired : asWired (wiredCh ch) = some ch := asWired_eq_some.mpr rfl
  simp only [setChannel, found, wired]

/-- With no WIRING presence held the channel begins again and nothing else changes. -/
theorem putWired_eq {s : State} {ch : Fin 24} (absent : s.fm.present (.wiring ch) = false) (cfg : WiredCfg) :
    putWired ch cfg s = done { s with ci := { s.ci with wired := s.ci.wired.set ch (Wired.fresh cfg) } } := by
  have held : (s.modWired ch fun _ => Wired.fresh cfg).fm.present (.wiring ch) = false := absent
  rw [putWired, setPresence, if_pos held]
  rfl

/-- What SET_CHANNEL of a wired channel does by kind, table and fields. -/
theorem setWired_cases (ch : Fin 24) (p : List Byte) :
    (∀ k, u8 p 1 = WiredKind.code k → k ≠ .off →
      (p.length < 12 ∨ 5 < u8 p 10 ∨ p.length ≠ 12 + 5 * u8 p 10 → setWired ch p s = refuse .badLength s) ∧
      (u8 p 10 ≤ 5 → p.length = 12 + 5 * u8 p 10 →
        setWired ch p s = parsed (wiredConfig ch k p) (fun cfg => putWired ch cfg s) s)) ∧
    (u8 p 1 = 0 → setWired ch p s = putWired ch .cleared s) ∧
    (3 ≤ u8 p 1 → setWired ch p s = refuse .badValue s) := by
  refine ⟨fun k kind on => ?_, fun kind => ?_, fun kind => ?_⟩
  · have found : WiredKind.ofCode (u8 p 1) = some k := wiredKind_ofCode.mpr kind
    unfold setWired
    rw [found]
    refine ⟨fun bad => ?_, fun few filled => ?_⟩
    · cases k with
      | off => exact absurd rfl on
      | switch | sender => exact if_pos bad
    · cases k with
      | off => exact absurd rfl on
      | switch | sender => exact if_neg (by omega)
  · have found : WiredKind.ofCode (u8 p 1) = some .off := wiredKind_ofCode.mpr kind
    simp only [setWired, found]
  · have unknown : WiredKind.ofCode (u8 p 1) = none := by
      match h : u8 p 1 with
      | 0 | 1 | 2 => omega
      | n + 3 => rfl
    simp only [setWired, unknown]

end

theorem exec_setChannel {s : State} (tag : Byte) {p : List Byte} (taken : s.taking) (config : s.sc.opState = .config)
    (lo : 2 ≤ p.length) (hi : p.length ≤ 37) :
    exec (.setChannel tag p) s = .next (sendReply 0x11 tag (setChannel p s).2 (setChannel p s).1) :=
  congrArg _ (serve_config 0x11 setChannel tag taken config (by simp [lo, hi]))

/-- Kinds 1 and 2 are SWITCH and SENDER. -/
theorem kind_of_byte {kind : Byte} (h : kind = 1 ∨ kind = 2) : ∃ k : WiredKind, kind.toNat = k.code ∧ k ≠ .off := by
  rcases h with rfl | rfl
  · exact ⟨.switch, rfl, nofun⟩
  · exact ⟨.sender, rfl, nofun⟩

/-- A band table that fills its payload, as the tenth byte counts it. -/
theorem filled_iff (a : Nat) (kind : Byte) (rest : List Byte) :
    (∃ n : Nat, n ≤ 5 ∧ rest[8]? = some (BitVec.ofNat 8 n) ∧ rest.length = 10 + 5 * n) ↔
      u8 (b1 a ++ [kind] ++ rest) 10 ≤ 5 ∧
        (b1 a ++ [kind] ++ rest).length = 12 + 5 * u8 (b1 a ++ [kind] ++ rest) 10 := by
  have count : u8 (b1 a ++ [kind] ++ rest) 10 = u8 rest 8 := rfl
  have len : (b1 a ++ [kind] ++ rest).length = rest.length + 2 := rfl
  rw [count, len]
  constructor
  · rintro ⟨n, few, eighth, len⟩
    have read : u8 rest 8 = n := by
      rw [u8, List.getD_eq_getElem?_getD, eighth]
      exact byte_toNat (by omega)
    omega
  · rintro ⟨few, len⟩
    exact ⟨u8 rest 8, few, u8_lt_length (by omega), by omega⟩

/-- Settles O22: the owner's checks in their order, and a payload carries exactly one configuration. -/
theorem setChannelStoresAWiredConfiguration : Obligations.SetChannelStoresAWiredConfiguration := by
  intro s tag ch taken config absent
  refine ⟨fun c admitted => ?_, fun rest short => ?_, fun kind rest short => ⟨fun unknown => ?_, fun known unfilled => ?_,
    fun known filled none => ?_⟩⟩
  · have carried := c.admitted_carried admitted
    obtain ⟨on, -, -, few, -, table, -⟩ := admitted
    have len := WiredCfg.payload_length ch c
    have count : u8 (c.payload ch) 10 = c.thresholds.length := byte_toNat (by omega)
    have kind : u8 (c.payload ch) 1 = c.kind.code := byte_toNat (by cases c.kind <;> decide)
    have channel : u8 (c.payload ch) 0 = ch.val := byte_toNat (by omega)
    rw [exec_setChannel tag taken config (by omega) (by omega), setChannel_wired s channel,
      ((setWired_cases s ch _).1 c.kind kind on).2 (by omega) (by omega),
      parsed_some (wiredConfig_eq_some.mpr ⟨rfl, carried⟩), putWired_eq absent]
    simp only [Wired.fresh, if_neg on]
    rfl
  · have channel : u8 (b1 ch.val ++ b1 0 ++ rest) 0 = ch.val := byte_toNat (by omega)
    rw [exec_setChannel tag taken config (by simp [b1]) (by simp [b1]; omega), setChannel_wired s channel,
      (setWired_cases s ch _).2.1 rfl, putWired_eq absent]
    rfl
  all_goals
    have channel : u8 (b1 ch.val ++ [kind] ++ rest) 0 = ch.val := byte_toNat (by omega)
    rw [exec_setChannel tag taken config (by simp [b1]) (by simp [b1]; omega), setChannel_wired s channel]
  · rw [(setWired_cases s ch (b1 ch.val ++ [kind] ++ rest)).2.2 unknown]
    rfl
  · obtain ⟨k, code, on⟩ := kind_of_byte known
    rw [((setWired_cases s ch (b1 ch.val ++ [kind] ++ rest)).1 k code on).1]
    · rfl
    · have open' := mt (filled_iff ch.val kind rest).mpr unfilled
      omega
  · obtain ⟨k, code, on⟩ := kind_of_byte known
    obtain ⟨few, len⟩ := (filled_iff ch.val kind rest).mp filled
    rw [((setWired_cases s ch (b1 ch.val ++ [kind] ++ rest)).1 k code on).2 few len]
    cases read : wiredConfig ch k (b1 ch.val ++ [kind] ++ rest) with
    | none => rfl
    | some c =>
      obtain ⟨rfl, carried⟩ := wiredConfig_eq_some.mp read
      exact absurd (carried.payload channel code len).symm (none c (carried.admitted on few))

end Sys2Proof.Machine
end

section
/-! PROOFS. SET_CHANNEL of a network channel (R49, R190). -/

namespace Sys2Proof.Machine

set_option Elab.async false

/-- The two bytes of a signed word, two's complement. -/
theorem signed_toNat {i : Int} (h : isS16 i) : asSigned 16 ((BitVec.ofNat 8 (i % 65536).toNat).toNat +
    256 * (BitVec.ofNat 8 ((i % 65536).toNat / 256)).toNat) = i := by
  obtain ⟨lo, hi⟩ := h
  rw [word_toNat (by omega), asSigned]
  split <;> omega

section
variable (s : State)

/-- A payload whose first byte is a network channel's number goes to that channel. -/
theorem setChannel_net {p : List Byte} {n : Fin 16} (channel : u8 p 0 = 24 + n.val) : setChannel p s = setNet n p s := by
  have found : item? 40 (u8 p 0) = some (netCh n) := item_eq_some.mpr (by rw [channel]; exact Nat.add_comm _ _)
  have wired : asWired (netCh n) = none := item_none (Nat.le_add_left 24 n.val)
  have net : asNet (netCh n) = some n := asNet_eq_some.mpr rfl
  simp only [setChannel, found, wired, net]

theorem setChannel_unnumbered {p : List Byte} (bad : 40 ≤ u8 p 0) : setChannel p s = refuse .badValue s := by
  simp only [setChannel, item_none bad]

/-- With no NETLOST presence held the channel begins again and nothing else changes. -/
theorem putNet_eq {s : State} {n : Fin 16} (absent : s.fm.present (.netlost n) = false) (cfg : NetCfg) :
    putNet n cfg s = done { s with ci := { s.ci with net := s.ci.net.set n (Net.fresh cfg) } } := by
  have held : (s.modNet n fun _ => Net.fresh cfg).fm.present (.netlost n) = false := absent
  rw [putNet, setPresence, if_pos held]
  rfl

/-- The owner's checks on a payload of kind NETWORK that carries the fields of a configuration. -/
theorem setNet_payload (n : Fin 16) {c : NetCfg} (network : c.network = true) (min : isS16 c.min) (max : isS16 c.max)
    (fresh : c.fresh ≤ 255) (lost : c.lost ≤ 255) : setNet n (c.payload n) s =
      if c.min ≤ c.max ∧ 5 ≤ c.fresh ∧ 1 ≤ c.lost then putNet n c s else refuse .badValue s := by
  have kind : u8 (c.payload n) 1 = 3 := by
    show (BitVec.ofNat 8 c.kindCode).toNat = 3
    rw [NetCfg.kindCode, if_pos network]
    rfl
  have len : (c.payload n).length = 8 := rfl
  have lo : s16 (c.payload n) 2 = c.min := signed_toNat min
  have hi : s16 (c.payload n) 4 = c.max := signed_toNat max
  have fresh' : u8 (c.payload n) 6 = c.fresh := byte_toNat (by omega)
  have lost' : u8 (c.payload n) 7 = c.lost := byte_toNat (by omega)
  have checks : c.max < c.min ∨ (!within 5 255 c.fresh) = true ∨ (!within 1 255 c.lost) = true ↔
      ¬ (c.min ≤ c.max ∧ 5 ≤ c.fresh ∧ 1 ≤ c.lost) := by
    simp only [Bool.not_eq_true', Bool.and_eq_false_iff, decide_eq_false_iff_not]
    omega
  have cfg : ({ network := true, min := c.min, max := c.max, fresh := c.fresh, lost := c.lost } : NetCfg) = c := by
    rw [← network]
  unfold setNet
  rw [kind, len, lo, hi, fresh', lost', cfg, if_neg (by decide), if_neg (by decide), if_neg (by decide)]
  split <;> rename_i bad
  · rw [if_neg (checks.mp bad)]
  · rw [if_pos (not_not.mp (mt checks.mpr bad))]

end

/-- Settles O23: the owner's checks in their order. -/
theorem setChannelStoresANetworkConfiguration : Obligations.SetChannelStoresANetworkConfiguration := by
  intro s tag n taken config
  have carries (kind : Byte) (rest : List Byte) (short : rest.length ≤ 35) :
      exec (.setChannel tag (b1 (24 + n.val) ++ [kind] ++ rest)) s =
        .next (sendReply 0x11 tag (setNet n (b1 (24 + n.val) ++ [kind] ++ rest) s).2
          (setNet n (b1 (24 + n.val) ++ [kind] ++ rest) s).1) := by
    have channel : u8 (b1 (24 + n.val) ++ [kind] ++ rest) 0 = 24 + n.val := byte_toNat (by omega)
    rw [exec_setChannel tag taken config (by simp [b1]) (by simp [b1]; omega), setChannel_net s channel]
  have payload (c : NetCfg) : exec (.setChannel tag (c.payload n)) s =
      .next (sendReply 0x11 tag (setNet n (c.payload n) s).2 (setNet n (c.payload n) s).1) :=
    carries (BitVec.ofNat 8 c.kindCode) (i2 c.min ++ i2 c.max ++ b1 c.fresh ++ b1 c.lost) (by decide : (6 : Nat) ≤ 35)
  refine ⟨fun absent => ⟨fun c admitted => ?_, fun rest short => ?_⟩, fun kind rest short => ⟨fun off other => ?_,
    fun known len => ?_⟩, fun c network min max fresh lost bad => ?_, fun b rest above lo hi => ?_⟩
  · obtain ⟨network, min, max, ordered, fresh, fresh', lost, lost'⟩ := admitted
    rw [payload c, setNet_payload s n network min max fresh' lost', if_pos ⟨ordered, fresh, lost⟩, putNet_eq absent]
    simp only [Net.fresh, if_pos network]
    rfl
  · have cleared : setNet n (b1 (24 + n.val) ++ b1 0 ++ rest) s = putNet n .cleared s := if_pos rfl
    refine (carries 0 rest short).trans ?_
    rw [show [(0 : Byte)] = b1 0 from rfl, cleared, putNet_eq absent]
    rfl
  · have first : u8 (b1 (24 + n.val) ++ [kind] ++ rest) 1 ≠ 0 := fun h => off (byte_of_toNat h)
    have second : u8 (b1 (24 + n.val) ++ [kind] ++ rest) 1 ≠ 3 := fun h => other (byte_of_toNat h)
    rw [carries kind rest short, setNet, if_neg first, if_pos second]
    rfl
  · subst known
    have first : u8 (b1 (24 + n.val) ++ [3] ++ rest) 1 = 3 := rfl
    have filled : (b1 (24 + n.val) ++ [3] ++ rest).length ≠ 8 := by simpa [b1] using len
    rw [carries 3 rest short, setNet, first, if_neg (by decide), if_neg (by decide), if_pos filled]
    rfl
  · rw [payload c, setNet_payload s n network min max fresh lost, if_neg bad]
    rfl
  · rw [exec_setChannel tag taken config (by simpa using lo) (by simp; omega),
      setChannel_unnumbered s (p := b :: rest) above]
    rfl

end Sys2Proof.Machine
end

section
/-! PROOFS. The readouts of a range (R69, R91, R145, R194): READ_CHANNELS, READ_GAUGES and READ_DOOR_STATS. -/

namespace Sys2Proof.Machine

set_option Elab.async false

/-! ## The range -/

/-- The items of a range that fits, from the first on. -/
theorem readItems_eq {n : Nat} {first count : Byte} (fits : first.toNat + count.toNat ≤ n) :
    readItems n [first, count] = itemsFrom n first.toNat count.toNat := by
  show ((List.finRange n).drop first.toNat).take count.toNat = _
  have item : ∀ l : List Nat, (∀ k ∈ l, first.toNat + k < n) →
      (l.filterMap fun k => item? n (first.toNat + k)).map Fin.val = l.map (first.toNat + ·) := by
    intro l
    induction l with
    | nil => exact fun _ => rfl
    | cons k l ih =>
      intro below
      rw [List.filterMap_cons_some (dif_pos (below k List.mem_cons_self)), List.map_cons,
        ih fun j hj => below j (List.mem_cons_of_mem _ hj)]
      rfl
  apply List.map_injective_iff.mpr Fin.val_injective
  rw [itemsFrom, item _ fun k hk => by have := List.mem_range.mp hk; omega]
  apply List.ext_getElem
  · simp only [List.length_map, List.length_take, List.length_drop, List.length_finRange, List.length_range]
    omega
  · intro i _ _
    simp

theorem rangeGood_iff {n most : Nat} {first count : Byte} : rangeGood n most [first, count] = true ↔
    1 ≤ count.toNat ∧ count.toNat ≤ most ∧ first.toNat + count.toNat ≤ n := by
  show (decide (first.toNat < n) && within 1 most count.toNat && decide (first.toNat + count.toNat ≤ n)) = true ↔ _
  simp only [Bool.and_eq_true, decide_eq_true_eq]
  omega

section
variable (s : State) {first count : Byte}

theorem readChannels_eq (fits : 1 ≤ count.toNat ∧ count.toNat ≤ 12 ∧ first.toNat + count.toNat ≤ 40) :
    readChannels [first, count] s = (s, .positive (s.ci.header count.toNat ++
      (itemsFrom 40 first.toNat count.toNat).flatMap s.ci.entry)) := by
  rw [readChannels, if_pos (rangeGood_iff.mpr fits), readItems_eq fits.2.2]
  rfl

theorem readChannels_refused (bad : ¬ (1 ≤ count.toNat ∧ count.toNat ≤ 12 ∧ first.toNat + count.toNat ≤ 40)) :
    readChannels [first, count] s = refuse .badValue s := if_neg (mt rangeGood_iff.mp bad)

theorem readGauges_eq (fits : 1 ≤ count.toNat ∧ count.toNat ≤ 8 ∧ first.toNat + count.toNat ≤ 8) :
    readGauges [first, count] s = (s, .positive (b1 count.toNat ++
      (itemsFrom 8 first.toNat count.toNat).flatMap s.gaugeEntry)) := by
  rw [readGauges, if_pos (rangeGood_iff.mpr fits), readItems_eq fits.2.2]
  rfl

theorem readGauges_refused (bad : ¬ (1 ≤ count.toNat ∧ count.toNat ≤ 8 ∧ first.toNat + count.toNat ≤ 8)) :
    readGauges [first, count] s = refuse .badValue s := if_neg (mt rangeGood_iff.mp bad)

theorem readDoorStats_eq (fits : 1 ≤ count.toNat ∧ count.toNat ≤ 8 ∧ first.toNat + count.toNat ≤ 8) :
    readDoorStats [first, count] s = (s, .positive (b1 count.toNat ++
      (itemsFrom 8 first.toNat count.toNat).flatMap fun i => s.dm.stats[i].entry i.val)) := by
  rw [readDoorStats, if_pos (rangeGood_iff.mpr fits), readItems_eq fits.2.2]
  rfl

theorem readDoorStats_refused (bad : ¬ (1 ≤ count.toNat ∧ count.toNat ≤ 8 ∧ first.toNat + count.toNat ≤ 8)) :
    readDoorStats [first, count] s = refuse .badValue s := if_neg (mt rangeGood_iff.mp bad)

/-! ## The fields (section 12.6) -/

/-- One flag as its byte. -/
theorem flags_one (f : Bool) : flags [f] = b1 (if f then 1 else 0) := by cases f <;> rfl

theorem header_eq (c : Interp) (n : Nat) : c.header n =
    b1 (if c.refFault then 2 else match c.judgement with
        | some .good => 0
        | some .failed => 1
        | none => 3) ++ b1 c.failCount ++ b2 (c.passCount.getD 0) ++ b2 (c.supplyMv.getD 0) ++
      b1 c.supply.code ++ b1 c.motion.code ++ flagBits [c.passCount.isSome, c.supplyMv.isSome] ++ b1 n := by
  rw [flagBits_eq_flags]
  rfl

theorem header_length (c : Interp) (n : Nat) : (c.header n).length = 10 := rfl

/-- A channel number names a wired or a network channel. -/
theorem channel_cases (ch : Fin 40) : (∃ w, ch = wiredCh w) ∨ ∃ n, ch = netCh n := by
  by_cases h : ch.val < 24
  · exact .inl ⟨⟨ch.val, h⟩, rfl⟩
  · exact .inr ⟨⟨ch.val - 24, by omega⟩, Fin.ext (by simp [netCh]; omega)⟩

theorem asWired_netCh (n : Fin 16) : asWired (netCh n) = none := item_none (Nat.le_add_left 24 n.val)

theorem entry_wired (c : Interp) (ch : Fin 24) : c.entry (wiredCh ch) = c.wiredEntry ch := by
  rw [Interp.entry, asWired_eq_some.mpr rfl]

theorem entry_net (c : Interp) (n : Fin 16) : c.entry (netCh n) = c.netEntry n := by
  rw [Interp.entry, asWired_netCh, asNet_eq_some.mpr rfl]

theorem channelEntry_length (c : Interp) (ch : Fin 40) : (c.entry ch).length = 12 := by
  obtain ⟨w, rfl⟩ | ⟨n, rfl⟩ := channel_cases ch
  · rw [entry_wired]
    rfl
  · rw [entry_net]
    rfl

theorem classCode_eq (k : Option ReadingClass) : classCode k = classByte k := by
  cases k with
  | none => rfl
  | some k => cases k <;> rfl

theorem wiredEntry_eq (c : Interp) (ch : Fin 24) : c.wiredEntry ch =
    b1 ch.val ++ b1 c.wired[ch].cfg.kind.code ++ b1 c.wired[ch].status.code ++ b1 c.wired[ch].wiring.code ++
      b1 (classByte c.wired[ch].confirmed) ++ b4 (c.wired[ch].value.getD 0) ++
      b1 (match c.wired[ch].reading with
        | some .active => 1
        | some .inactive => 0
        | none => 0xFF) ++ b1 (c.eff (wiredCh ch)).status.code ++
      flagBits [c.wired[ch].value.isSome, c.wired[ch].switched, c.wired[ch].limited] := by
  have reading (r : Option SwitchReading) : (r.map SwitchReading.code).getD 0xFF = match r with
      | some .active => 1
      | some .inactive => 0
      | none => 0xFF := by
    cases r with
    | none => rfl
    | some r => cases r <;> rfl
  rw [flagBits_eq_flags, ← classCode_eq, ← reading]
  rfl

theorem netEntry_eq (c : Interp) (n : Fin 16) : c.netEntry n =
    b1 (24 + n.val) ++ b1 (if c.net[n].cfg.network then 3 else 0) ++ b1 c.net[n].status.code ++ b1 0 ++ b1 0xFF ++
      i4 (c.net[n].value.getD 0) ++ b1 0xFF ++ b1 c.net[n].status.code ++
      flagBits [c.net[n].value.isSome, false, c.net[n].limited] := by
  rw [flagBits_eq_flags]
  rfl

theorem gaugeEntry_length (g : Fin 8) : (s.gaugeEntry g).length = 17 := rfl

theorem gaugeEntry_eq (g : Fin 8) : s.gaugeEntry g =
    b1 g.val ++ flagBits [s.ge[g].record.isSome, s.ge[g].display.isSome, s.ge[g].testPos.isSome, s.ge[g].limited] ++
      b1 s.ge[g].pointer.code ++ b1 (match s.ge[g].resume with
        | some st => st.code
        | none => 0xFF) ++ i2 (s.ge[g].display.getD 0) ++ b1 s.ge[g].range.code ++
      b1 (match s.ge[g].record with
        | some r => (s.ci.eff r.source).status.code
        | none => 0) ++ b2 s.ge[g].target ++ b2 s.ge[g].filtered ++ b2 s.ge[g].pos ++ b2 (s.ge[g].testPos.getD 0) ++
      b1 s.ge[g].restarts := by
  have resume (st : Option PointerState) : (st.map PointerState.code).getD 0xFF = match st with
      | some st => st.code
      | none => 0xFF := by cases st <;> rfl
  have source (r : Option GaugeRec) : (r.map fun r => (s.ci.eff r.source).status.code).getD 0 = match r with
      | some r => (s.ci.eff r.source).status.code
      | none => 0 := by cases r <;> rfl
  rw [flagBits_eq_flags, ← resume, ← source]
  rfl

end

/-- The statistics entries of a readout, with their fields. -/
theorem statsEntries_eq (s : State) (is : List (Fin 8)) : (is.flatMap fun i => s.dm.stats[i].entry i.val) =
    is.flatMap fun i => b1 i.val ++ b4 s.dm.stats[i].cycles ++ b2 s.dm.stats[i].obstructions ++ b2 s.dm.stats[i].slow ++
      b2 (s.dm.stats[i].mean.getD 0) ++ b1 (if s.dm.stats[i].mean.isSome then 1 else 0) := by
  simp only [DoorStats.entry, flags_one]

/-- Settles O19: each owner answers the items of its range, and an item's entry has the fields of section 12.6. -/
theorem rangeReadoutsCarryTheirItems : Obligations.RangeReadoutsCarryTheirItems := by
  intro s tag first count taken
  refine ⟨fun running => ?_, fun state => ?_, header_length s.ci _, channelEntry_length s.ci, gaugeEntry_length s,
    header_eq s.ci _, fun ch => (entry_wired s.ci ch).trans (wiredEntry_eq s.ci ch),
    fun n => (entry_net s.ci n).trans (netEntry_eq s.ci n), gaugeEntry_eq s⟩
  · have channels : exec (.readChannels tag [first, count]) s =
        .next (sendReply 0x22 tag (readChannels [first, count] s).2 (readChannels [first, count] s).1) :=
      congrArg _ (reqReadChannels.serve_accepted tag taken rfl (decide_eq_true running) nofun)
    have gauges : exec (.readGauges tag [first, count]) s =
        .next (sendReply 0x23 tag (readGauges [first, count] s).2 (readGauges [first, count] s).1) :=
      congrArg _ (reqReadGauges.serve_accepted tag taken rfl (decide_eq_true running) nofun)
    refine ⟨fun lo hi fits => ?_, fun bad => ?_, fun lo fits => ?_, fun bad => ?_⟩
    · rw [channels, readChannels_eq s ⟨lo, hi, fits⟩]
      rfl
    · rw [channels, readChannels_refused s (by omega)]
      rfl
    · rw [gauges, readGauges_eq s ⟨lo, by omega, fits⟩]
      rfl
    · rw [gauges, readGauges_refused s (by omega)]
      rfl
  · have accepts : inConfigOrRun s.sc.opState = true := by rcases state with h | h <;> rw [h] <;> rfl
    have stats : exec (.readDoorStats tag [first, count]) s =
        .next (sendReply 0x27 tag (readDoorStats [first, count] s).2 (readDoorStats [first, count] s).1) :=
      congrArg _ (reqReadDoorStats.serve_accepted tag taken rfl accepts nofun)
    refine ⟨fun lo fits => ?_, fun bad => ?_⟩
    · rw [stats, readDoorStats_eq s ⟨lo, by omega, fits⟩, statsEntries_eq]
      rfl
    · rw [stats, readDoorStats_refused s (by omega)]
      rfl

end Sys2Proof.Machine
end

section
/-! PROOFS. The arithmetic of measuring and showing: the quotients rounded to nearest, the dial map, the filter and the slew
(R52, R75, R76, R78, R79). -/

namespace Sys2Proof.Machine

set_option Elab.async false

/-! ## Quotients rounded to nearest (R52, R75) -/

/-- A quotient of whole numbers is the greatest multiple not above the dividend. -/
theorem ediv_bounds (n : Int) {d : Int} (pos : 0 < d) : n / d * d ≤ n ∧ n < n / d * d + d := by
  have above := Int.lt_ediv_add_one_mul_self n pos
  rw [Int.add_mul, Int.one_mul] at above
  exact ⟨Int.ediv_mul_le n (Int.ne_of_gt pos), above⟩

theorem resistance_near (rRef nRef : Nat) {n : Nat} (gate : Fin 4) (pos : 0 < n) :
    let x := resistance rRef nRef n gate
    2 * (rRef * nRef * 2 ^ gate.val) < 2 * x * (4 * n) + 4 * n ∧
      2 * x * (4 * n) ≤ 2 * (rRef * nRef * 2 ^ gate.val) + 4 * n := by
  intro x
  generalize dividend : rRef * nRef * 2 ^ gate.val = a
  have value : x = (a + n * 4 / 2) / (n * 4) := by rw [← dividend]; rfl
  have below := Nat.div_mul_le_self (a + n * 4 / 2) (n * 4)
  have above := Nat.lt_div_mul_add (a := a + n * 4 / 2) (show 0 < n * 4 by omega)
  rw [← value] at below above
  have twice : 2 * x * (4 * n) = 2 * (x * (n * 4)) := by ring
  omega

/-- The quotient of an integer by a positive one, rounded: within half a divisor. -/
theorem roundHalfAway_near (n : Int) {d : Int} (pos : 0 < d) :
    -d ≤ 2 * (roundHalfAway n d * d) - 2 * n ∧ 2 * (roundHalfAway n d * d) - 2 * n ≤ d := by
  have half (m : Int) : (2 * m + d) / (2 * d) * (2 * d) = 2 * ((2 * m + d) / (2 * d) * d) := by ring
  unfold roundHalfAway
  split
  · have bounds := ediv_bounds (2 * n + d) (show 0 < 2 * d by omega)
    rw [half] at bounds
    omega
  · have bounds := ediv_bounds (2 * -n + d) (show 0 < 2 * d by omega)
    rw [half] at bounds
    rw [Int.neg_mul]
    omega

theorem roundHalfAway_zero {d : Int} (pos : 0 < d) : roundHalfAway 0 d = 0 := by
  rw [roundHalfAway, if_pos (Int.le_refl 0)]
  exact Int.ediv_eq_zero_of_lt (by omega) (by omega)

/-- A fraction of a distance, rounded, lies within the distance. -/
theorem roundHalfAway_between {k d h : Int} (nonneg : 0 ≤ k) (below : k < d) :
    min 0 h ≤ roundHalfAway (k * h) d ∧ roundHalfAway (k * h) d ≤ max 0 h := by
  obtain ⟨low, high⟩ := roundHalfAway_near (k * h) (show 0 < d by omega)
  generalize roundHalfAway (k * h) d = q at low high ⊢
  constructor
  · by_contra less
    rcases Int.le_total 0 h with up | down
    · have : 0 ≤ k * h := Int.mul_nonneg nonneg up
      nlinarith [show q ≤ -1 by omega]
    · nlinarith [show q ≤ h - 1 by omega]
  · by_contra more
    rcases Int.le_total 0 h with up | down
    · nlinarith [show h + 1 ≤ q by omega]
    · have : k * h ≤ 0 := Int.mul_nonpos_of_nonneg_of_nonpos nonneg down
      nlinarith [show 1 ≤ q by omega]

/-! ## The curve (R75) -/

section
variable {a b : CurvePoint} {x : Int}

theorem between_near (h : a.x < b.x) (x : Int) :
    (2 * ((a.between b x - a.y) * (b.x - a.x) - (x - a.x) * (b.y - a.y))).natAbs ≤ (b.x - a.x).natAbs := by
  have near := roundHalfAway_near ((x - a.x) * (b.y - a.y)) (show 0 < b.x - a.x by omega)
  have move : a.between b x - a.y = roundHalfAway ((x - a.x) * (b.y - a.y)) (b.x - a.x) := add_sub_cancel_left _ _
  rw [move]
  omega

theorem between_bounds (from_ : a.x ≤ x) (below : x < b.x) :
    min a.y b.y ≤ a.between b x ∧ a.between b x ≤ max a.y b.y := by
  have moves := roundHalfAway_between (h := b.y - a.y) (show 0 ≤ x - a.x by omega) (show x - a.x < b.x - a.x by omega)
  unfold CurvePoint.between
  omega

theorem between_start (h : a.x < b.x) : a.between b a.x = a.y := by
  rw [CurvePoint.between, Int.sub_self, Int.zero_mul, roundHalfAway_zero (by omega), Int.add_zero]

end

/-! ## The dial map (R76) -/

section
variable {r : GaugeRec} {y z : Int}

theorem dial_low (h : y ≤ r.vMin) : r.dial y = 0 := if_pos h

theorem dial_high (range : r.vMin < r.vMax) (h : r.vMax ≤ y) : r.dial y = r.span := by
  rw [GaugeRec.dial, if_neg (by omega), if_pos h]

/-- Inside the dial range the position is the fraction of the span, rounded to nearest. -/
theorem dial_inside (h : r.vMin < y) (h' : y < r.vMax) :
    (r.dial y : Int) = ((y - r.vMin) * r.span + (r.vMax - r.vMin) / 2) / (r.vMax - r.vMin) := by
  rw [GaugeRec.dial, if_neg (by omega), if_neg (by omega)]
  refine Int.toNat_of_nonneg (Int.ediv_nonneg ?_ (by omega))
  have : 0 ≤ (y - r.vMin) * (r.span : Int) := Int.mul_nonneg (by omega) (by omega)
  omega

theorem dial_near (h : r.vMin < y) (h' : y < r.vMax) :
    2 * ((y - r.vMin) * r.span) - (r.vMax - r.vMin) < 2 * r.dial y * (r.vMax - r.vMin) ∧
      2 * r.dial y * (r.vMax - r.vMin) ≤ 2 * ((y - r.vMin) * r.span) + (r.vMax - r.vMin) := by
  have bounds := ediv_bounds ((y - r.vMin) * r.span + (r.vMax - r.vMin) / 2) (show 0 < r.vMax - r.vMin by omega)
  rw [← dial_inside h h'] at bounds
  rw [Int.mul_assoc]
  omega

theorem dial_le_span (range : r.vMin < r.vMax) (y : Int) : r.dial y ≤ r.span := by
  by_cases low : y ≤ r.vMin
  · rw [dial_low low]
    exact Nat.zero_le _
  · by_cases high : r.vMax ≤ y
    · exact Nat.le_of_eq (dial_high range high)
    · have near := (dial_near (r := r) (y := y) (by omega) (by omega)).2
      by_contra more
      nlinarith [show (r.span : Int) + 1 ≤ r.dial y by omega]

theorem dial_mono (range : r.vMin < r.vMax) (h : y ≤ z) : r.dial y ≤ r.dial z := by
  by_cases low : y ≤ r.vMin
  · rw [dial_low low]
    exact Nat.zero_le _
  · by_cases high : r.vMax ≤ z
    · rw [dial_high range high]
      exact dial_le_span range y
    · have steps : (r.dial y : Int) ≤ r.dial z := by
        rw [dial_inside (by omega) (by omega), dial_inside (y := z) (by omega) (by omega)]
        exact Int.ediv_le_ediv (by omega)
          (Int.add_le_add_right (Int.mul_le_mul_of_nonneg_right (by omega) (by omega)) _)
      omega

end

/-! ## The filter and the slew (R78, R79) -/

/-- The move of the filter: the whole fraction of the distance toward the goal, at least 1. -/
theorem dampStep_eq (k : Nat) (d : Int) :
    dampStep k d = if d.natAbs < 2 ^ k then d.sign else d.sign * (d.natAbs / 2 ^ k : Nat) := by
  have fraction : d.tdiv (2 ^ k) = d.sign * (d.natAbs / 2 ^ k : Nat) := by
    obtain ⟨m, rfl | rfl⟩ := d.eq_nat_or_neg
    · rcases m.eq_zero_or_pos with rfl | pos
      · simp
      · rw [Int.sign_eq_one_of_pos (by omega), Int.one_mul, Int.natAbs_natCast]
        norm_cast
    · rcases m.eq_zero_or_pos with rfl | pos
      · simp
      · rw [Int.sign_eq_neg_one_of_neg (by omega), Int.neg_tdiv, Int.natAbs_neg, Int.natAbs_natCast, Int.neg_one_mul]
        norm_cast
  have none : d.natAbs < 2 ^ k ↔ d.tdiv (2 ^ k) = 0 := by
    rw [fraction, Int.mul_eq_zero, Int.sign_eq_zero_iff_zero, Int.natCast_eq_zero, Nat.div_eq_zero_iff]
    have := Nat.two_pow_pos k
    omega
  simp only [dampStep, none, fraction]

theorem dampStep_bounds (k : Nat) (d : Int) :
    (0 ≤ d → 0 ≤ dampStep k d ∧ dampStep k d ≤ d) ∧ (d ≤ 0 → d ≤ dampStep k d ∧ dampStep k d ≤ 0) ∧
      (d ≠ 0 → dampStep k d ≠ 0) ∧ (k = 0 → dampStep k d = d) := by
  have whole := Nat.div_le_self d.natAbs (2 ^ k)
  rw [dampStep_eq]
  rcases Int.lt_trichotomy d 0 with down | rfl | up
  · rw [Int.sign_eq_neg_one_of_neg down]
    split
    next small => exact ⟨by omega, by omega, by omega, fun h => by rw [h, pow_zero] at small; omega⟩
    next large =>
      have := Nat.div_pos (Nat.le_of_not_lt large) (Nat.two_pow_pos k)
      exact ⟨by omega, by omega, by omega, fun h => by rw [h, pow_zero, Nat.div_one]; omega⟩
  · simp
  · rw [Int.sign_eq_one_of_pos up]
    split
    next small => exact ⟨by omega, by omega, by omega, fun h => by rw [h, pow_zero] at small; omega⟩
    next large =>
      have := Nat.div_pos (Nat.le_of_not_lt large) (Nat.two_pow_pos k)
      exact ⟨by omega, by omega, by omega, fun h => by rw [h, pow_zero, Nat.div_one]; omega⟩

/-- The accumulator moves by its step. -/
theorem dampAcc_eq (k acc target : Nat) : (dampAcc k acc target : Int) = acc + dampStep k (256 * target - acc) := by
  obtain ⟨up, down, -, -⟩ := dampStep_bounds k (256 * target - acc)
  rw [dampAcc, Int.mul_comm (target : Int) 256]
  refine Int.toNat_of_nonneg ?_
  rcases Int.le_total 0 (256 * target - acc : Int) with h | h
  · have := up h
    omega
  · have := down h
    omega

theorem dampAcc_filterNext (k acc target : Nat) : (dampAcc k acc target : Int) = filterNext k acc target := by
  rw [dampAcc_eq, dampStep_eq, filterNext]
  exact apply_ite (fun m : Int => (acc : Int) + m) _ _ _

theorem dampAcc_moves (k acc target : Nat) :
    let a := dampAcc k acc target
    (acc ≤ 256 * target → acc ≤ a ∧ a ≤ 256 * target) ∧ (256 * target ≤ acc → 256 * target ≤ a ∧ a ≤ acc) ∧
      (k = 0 → a = 256 * target) ∧ (acc ≠ 256 * target → a ≠ acc) := by
  intro a
  have moved : (a : Int) = acc + dampStep k (256 * target - acc) := dampAcc_eq k acc target
  obtain ⟨up, down, moves, whole⟩ := dampStep_bounds k (256 * target - acc)
  refine ⟨fun h => ?_, fun h => ?_, fun h => ?_, fun h => ?_⟩
  · have := up (by omega)
    omega
  · have := down (by omega)
    omega
  · have := whole h
    omega
  · have := moves (by omega)
    omega

theorem slewTo_moves (p goal limit : Nat) :
    let q := slewTo p goal limit
    q = towards p goal limit ∧ (p ≤ goal → p ≤ q ∧ q ≤ goal ∧ q - p = min limit (goal - p)) ∧
      (goal ≤ p → goal ≤ q ∧ q ≤ p ∧ p - q = min limit (p - goal)) := by
  intro q
  have same : q = towards p goal limit := by
    show slewTo p goal limit = _
    unfold slewTo towards
    split <;> split <;> omega
  refine ⟨same, fun h => ?_, fun h => ?_⟩
  · have := same.trans (if_pos h)
    omega
  · have : q = _ := if_neg (Nat.not_lt.mpr h)
    omega

/-- Settles O55: each quotient lies within half a divisor of its fraction, and the filter and the slew by the sign of the
distance. -/
theorem measuringArithmeticRoundsToNearest : Obligations.MeasuringArithmeticRoundsToNearest :=
  ⟨fun rRef nRef _ gate pos => resistance_near rRef nRef gate pos,
    fun _ _ x h from_ below => ⟨between_near h x, (between_bounds from_ below).1, (between_bounds from_ below).2, fun e => by
      rw [e]
      exact between_start h⟩,
    fun _ y range => ⟨dial_low, dial_high range, dial_le_span range y, fun _ => dial_mono range, dial_near⟩,
    fun k acc target => ⟨dampAcc_filterNext k acc target, dampAcc_moves k acc target⟩, slewTo_moves⟩

end Sys2Proof.Machine
end

section
/-! PROOFS. SET_CHIME_FLOOR and CLEAR_LIMITS (R68, R90, R108, R117, R118). -/

namespace Sys2Proof.Machine

set_option Elab.async false

section
variable {s : State} (tag : Byte) (taken : s.taking) (run : s.sc.opState = .run)
include taken run

theorem exec_setChimeFloor (p : List Byte) (len : p.length = 1) : exec (.setChimeFloor tag p) s =
    .next (sendReply 0x29 tag (setChimeFloor p s).2 (setChimeFloor p s).1) :=
  congrArg _ (reqSetChimeFloor.serve_accepted tag taken (by simp [reqSetChimeFloor, runRequest, lengthIn, len])
    (decide_eq_true run) nofun)

theorem exec_clearLimits : exec (.clearLimits tag []) s =
    .next (sendReply 0x2A tag (clearLimits [] s).2 (clearLimits [] s).1) :=
  congrArg _ (reqClearLimits.serve_accepted tag taken rfl (decide_eq_true run) nofun)

end

theorem Priority.ofCode_code (x : Priority) : Priority.ofCode x.code = some x := by cases x <;> rfl

/-- Four levels are defined. -/
theorem Priority.ofCode_none {n : Nat} (h : 4 ≤ n) : Priority.ofCode n = none := by
  obtain ⟨k, rfl⟩ := Nat.exists_eq_add_of_le' h
  rfl

theorem setChimeFloor_stores (s : State) (floor : Priority) :
    setChimeFloor (b1 floor.code) s = done (takeFloor (s.modWm fun m => { m with floor })) := by
  have read : Priority.ofCode (u8 (b1 floor.code) 0) = some floor := by
    rw [show u8 (b1 floor.code) 0 = floor.code from byte_toNat (by cases floor <;> decide)]
    exact floor.ofCode_code
  exact parsed_some read _ s

theorem setChimeFloor_refused (s : State) {b : Byte} (h : 4 ≤ b.toNat) : setChimeFloor [b] s = refuse .badValue s :=
  parsed_none (Priority.ofCode_none h) _ s

/-- The claimant is read off the WM's definitions, the list copy, the floor copy, the activations finished and the chime
test. -/
theorem claimantNow_congr {s t : State} (defs : t.wm.defs = s.wm.defs) (list : t.ao.listCopy = s.ao.listCopy)
    (floor : t.ao.floorCopy = s.ao.floorCopy) (finished : t.ao.finished = s.ao.finished)
    (test : t.ao.chimeTest = s.ao.chimeTest) (gen : t.ao.testGen = s.ao.testGen) : t.claimantNow = s.claimantNow := by
  have claims : t.claimsChime = s.claimsChime := by
    funext e
    simp only [State.claimsChime, defs, floor, finished]
  simp only [State.claimantNow, claims, list, test, gen]

/-- In RUN the switch moves source, burst and phase alone. -/
theorem chimeSwitch_run {s : State} (run : s.sc.opState = .run) (genQ : Nat) :
    chimeSwitch genQ s = s.modAo fun a => { a with source := a.claimant, burst := 0, phase := 0, genQ } :=
  if_neg fun h => h.1 run

/-- A derivation in RUN: the claimant is the one the rules name; a silent CHIME with another source switches to it, any other
keeps source and phase. -/
theorem deriveChime_switches {s : State} (run : s.sc.opState = .run) :
    let t := deriveChime s
    t.ao.claimant = t.claimantNow ∧
      (s.ao.source = t.ao.claimant ∨ s.chimeTone ≠ none → t.ao.source = s.ao.source ∧ t.ao.phase = s.ao.phase) ∧
      (s.ao.source ≠ t.ao.claimant → s.chimeTone = none →
        t.ao.source = t.ao.claimant ∧ t.ao.phase = 0 ∧ t.ao.burst = 0) := by
  intro t
  have derived : t.ao = _ := deriveChime_ao s
  have only : Only [.ao] s t := deriveChime_only s
  have claimant : t.ao.claimant = s.claimantNow := by rw [derived]
  have again : t.claimantNow = s.claimantNow := by
    apply claimantNow_congr
    case defs => rw [only.wm]
    all_goals rw [derived]
  refine ⟨claimant.trans again.symm, ?_⟩
  rw [claimant]
  have tone : (s.modAo fun a => { a with claimant := s.claimantNow }).chimeTone = s.chimeTone :=
    chimeTone_congr rfl rfl rfl rfl
  rcases deriveChime_cases s with ⟨differs, silent, e⟩ | ⟨stays, e⟩
  · rw [chimeSwitch_run (by exact run)] at e
    have ends : t = _ := e
    refine ⟨fun h => ?_, fun _ _ => by rw [ends]; exact ⟨rfl, rfl, rfl⟩⟩
    rcases h with same | sounds
    · exact absurd same.symm differs
    · exact absurd (tone.symm.trans silent) sounds
  · have ends : t = _ := e
    refine ⟨fun _ => by rw [ends]; exact ⟨rfl, rfl⟩, fun differs silent => ?_⟩
    rcases stays with same | sounds
    · exact absurd same.symm differs
    · exact absurd (tone.trans silent) sounds

/-- Settles O32: the floor goes to the WM and the AO, which derives its claimant; the limited flags are cleared item by
item. -/
theorem floorAndLimitsAreSetInRun : Obligations.FloorAndLimitsAreSetInRun := by
  refine ⟨fun s tag taken run => ⟨fun floor => ?_, fun b high => ?_⟩, fun s tag taken run => ?_⟩
  · let u := (s.modWm fun m => { m with floor }).modAo fun a => { a with floorCopy := floor }
    have only : Only [.ao] u (deriveChime u) := deriveChime_only u
    have derived := deriveChime_ao u
    have answered : exec (.setChimeFloor tag (b1 floor.code)) s =
        .next (sendReply 0x29 tag (.positive []) (deriveChime u)) := by
      rw [exec_setChimeFloor tag taken run _ rfl, setChimeFloor_stores]
      rfl
    obtain ⟨claimant, keeps, switches⟩ := deriveChime_switches (s := u) run
    have tone : u.chimeTone = s.chimeTone := chimeTone_congr rfl rfl rfl rfl
    rw [tone] at keeps switches
    refine ⟨_, answered, only.wm, ?_, claimant, ?_, ?_, keeps, switches, ?_,
      ⟨only.pending, only.cu, ?_, ?_, ?_, ?_, ?_⟩, only.sc, only.ci, only.ge, only.dm, only.fm, only.jc⟩
    · exact congrArg (·.floorCopy) derived
    · exact congrArg (·.drive) derived
    · exact congrArg (·.listCopy) derived
    · exact congrArg (fun l : Link => { l with transmitter := .answering ((Reply.positive []).frame 0x29 tag) }) only.li
    all_goals exact congrArg _ only.sc
  · rw [exec_setChimeFloor tag taken run _ rfl, setChimeFloor_refused s high]
    rfl
  · rw [exec_clearLimits tag taken run]
    exact ⟨(clearLimits [] s).1, rfl, fun ch => vmap_get _ _ ch, fun n => vmap_get _ _ n, fun g => vmap_get _ _ g, rfl⟩

end Sys2Proof.Machine
end

section
/-! PROOFS. One warning asked in RUN: what a hand-over to the Warning Manager does to its instance and to the presence it hands
(R97 to R99, R109), and what it leaves of the other warnings. -/

namespace Sys2Proof.Machine

set_option Elab.async false

/-! ## A warning that is not asked -/

/-- Between two states a warning has not been asked: its instance and the presence it hands stand, the view has its channels,
and the motion state where the definition is gated. -/
structure State.Unasked (w : Fin 64) (d : WarnDef) (s t : State) : Prop where
  defs    : t.wm.defs = s.wm.defs
  inst    : t.wm.inst[w] = s.wm.inst[w]
  chan    : t.wm.view.map (·.chan) = s.wm.view.map (·.chan)
  motion  : d.gating ≠ .always → t.wm.view.map (·.motion) = s.wm.view.map (·.motion)
  present : t.fm.present (.warning w) = s.fm.present (.warning w)

section
variable {w x : Fin 64} {d e : WarnDef} {s t u : State}

theorem State.Unasked.refl (w : Fin 64) (d : WarnDef) (s : State) : s.Unasked w d s := ⟨rfl, rfl, rfl, fun _ => rfl, rfl⟩

theorem State.Unasked.trans (h : s.Unasked w d t) (k : t.Unasked w d u) : s.Unasked w d u where
  defs := k.defs.trans h.defs
  inst := k.inst.trans h.inst
  chan := k.chan.trans h.chan
  motion gated := (k.motion gated).trans (h.motion gated)
  present := k.present.trans h.present

theorem State.Unasked.ofSame (wm : t.wm = s.wm) (fm : t.fm = s.fm) : s.Unasked w d t := by
  constructor <;> simp only [wm, fm, implies_true]

/-- Sources of others at the FM. -/
theorem State.Unasked.ofFaults (wm : t.wm = s.wm) {touched : FaultSource → Prop} (fm : FaultsGrow touched s t)
    (off : ¬ touched (.warning w)) : s.Unasked w d t := by
  constructor
  case present => exact fm.present _ off
  all_goals simp only [wm, implies_true]

/-- The instances of others at the WM. -/
theorem State.Unasked.ofInst (defs : t.wm.defs = s.wm.defs) (view : t.wm.view = s.wm.view)
    (inst : t.wm.inst[w] = s.wm.inst[w]) (fm : t.fm = s.fm) : s.Unasked w d t := by
  constructor
  case inst => exact inst
  all_goals simp only [defs, view, fm, implies_true]

theorem State.Unasked.view (h : s.Unasked w d t) {v : View} (view : s.wm.view = some v) :
    ∃ v', t.wm.view = some v' ∧ v'.chan = v.chan ∧ (d.gating ≠ .always → v'.motion = v.motion) := by
  have chan := h.chan
  rw [view] at chan
  obtain ⟨v', view', same⟩ := Option.map_eq_some_iff.1 chan
  refine ⟨v', view', same, fun gated => ?_⟩
  have motion := h.motion gated
  rw [view, view'] at motion
  exact Option.some.inj motion

/-! ## Another warning asked -/

theorem setWarnState_unasked (other : x ≠ w) (st : WarnState) (f : WarnInst → WarnInst) (s : State) :
    s.Unasked w d (setWarnState x st (s.modInst x f)) :=
  .ofInst rfl rfl ((vmod_ne _ _ other).trans (vmod_ne _ _ other)) rfl

theorem activate_unasked (other : x ≠ w) (s : State) : s.Unasked w d (setWarnState x .active (activate x s)) :=
  .ofInst rfl rfl ((vmod_ne _ _ other).trans (vmod_ne _ _ other)) rfl

theorem takeList_unasked (s : State) : s.Unasked w d (takeList s) :=
  .ofSame (takeList_only s).wm (takeList_only s).fm

theorem setPresence_unasked {src : FaultSource} (other : src ≠ .warning w) (p : Bool) (s : State) :
    s.Unasked w d (setPresence src p s) :=
  .ofFaults (setPresence_only s src p).wm (setPresence_grows src p s) other.symm

theorem stopActivation_unasked (s : State) : s.Unasked w d (stopActivation s) :=
  .ofSame (stopActivation_only s).wm (stopActivation_only s).fm

theorem warning_ne (other : x ≠ w) : FaultSource.warning x ≠ .warning w := fun same => other (FaultSource.warning.inj same)

theorem enterActive_unasked (other : x ≠ w) (s : State) : s.Unasked w d (enterActive x s) := by
  refine inFreeOrder_induct (s.Unasked w d)
    (((activate_unasked other s).trans (takeList_unasked _)).trans (.ofSame rfl rfl)) fun u hu t h => h.trans ?_
  simp only [List.mem_cons, Prod.mk.injEq, List.not_mem_nil, or_false] at hu
  rcases hu with ⟨-, rfl⟩ | ⟨-, rfl⟩
  · exact setPresence_unasked (warning_ne other) true t
  · exact stopActivation_unasked t

theorem handList_unasked (st : WarnState) (s : State) : s.Unasked w d (handList x st s) := by
  refine State.Unasked.trans ?_ (takeList_unasked _)
  split
  · exact .ofInst rfl rfl rfl rfl
  · exact .refl w d s

theorem leaveActive_unasked (other : x ≠ w) (st : WarnState) (s : State) : s.Unasked w d (leaveActive x st s) := by
  refine ((setWarnState_unasked other st (fun i => { i with delayT := none, alertT := none }) s).trans
    (handList_unasked (x := x) st _)).trans ?_
  unfold leaveActive handAbsence
  dsimp only
  split
  · exact setPresence_unasked (warning_ne other) false _
  · exact .refl w d _

theorem actOn_unasked (other : x ≠ w) (e : WarnDef) (q : Bool) (s : State) : s.Unasked w d (actOn x e q s) := by
  unfold actOn
  split
  · unfold startWarning
    split
    · exact enterActive_unasked other s
    · exact setWarnState_unasked other .delaying _ s
  · exact setWarnState_unasked other .inactive _ s
  · exact leaveActive_unasked other _ s
  · exact leaveActive_unasked other .inactive s
  · exact enterActive_unasked other s
  · exact .refl w d s

theorem askWarning_unasked (other : x ≠ w) (reads : WarnDef → Bool) (v : View) (s : State) :
    s.Unasked w d (askWarning reads v x s) := by
  unfold askWarning
  split
  · split
    · exact actOn_unasked other _ _ s
    · exact .refl w d s
  · exact .refl w d s

/-! ## The warning asked (R98, R99, R109) -/

/-- What an instance becomes where it is asked with its qualification as it stands (R98, R99). -/
def WarnInst.acted (x : WarnInst) (d : WarnDef) (q : Bool) (act : Option Word32) : WarnInst :=
  match x.state, q with
  | .inactive, true =>
    if d.delay = 0 then { x with state := .active, delayT := none, alertT := none, act }
    else { x with state := .delaying, delayT := some (100 * d.delay) }
  | .retained, true => { x with state := .active, delayT := none, alertT := none, act }
  | .delaying, false => { x with state := .inactive, delayT := none }
  | .active, false => { x with state := if d.latching then .retained else .inactive, delayT := none, alertT := none }
  | .acked, false => { x with state := .inactive, delayT := none, alertT := none }
  | _, _ => x

/-- A warning that stood as `x` has been asked: its instance, and the presence it hands where it is fault-linked. -/
structure State.Acted (w : Fin 64) (d : WarnDef) (x : WarnInst) (q : Bool) (t : State) : Prop where
  inst   : t.wm.inst[w] = x.acted d q t.wm.inst[w].act
  enters : t.wm.inst[w].state = .active → x.state ≠ .active → t.wm.inst[w].act.isSome = true ∧
    (d.faultLink = true → t.fm.present (.warning w) = true)
  leaves : x.state = .active ∨ x.state = .acked → t.wm.inst[w].state = .retained ∨ t.wm.inst[w].state = .inactive →
    d.faultLink = true → t.fm.present (.warning w) = false

theorem State.Acted.rests {i : WarnInst} {q : Bool} (h : State.Acted w d i q t) (k : t.Unasked w e u) :
    State.Acted w d i q u := by
  obtain ⟨inst, enters, leaves⟩ := h
  rw [← k.inst] at inst enters leaves
  rw [← k.present] at enters leaves
  exact ⟨inst, enters, leaves⟩

theorem faultLinked_of (def? : s.wm.defs[w] = some d) : s.faultLinked w = d.faultLink := by
  rw [State.faultLinked, def?]
  rfl

/-- An instance that is not ACTIVE enters ACTIVE (R100). -/
theorem enterActive_acts (def? : s.wm.defs[w] = some d) (rests : s.wm.inst[w].state ≠ .acked) :
    (∃ act : Word32, (enterActive w s).wm.inst[w] =
      { s.wm.inst[w] with state := .active, delayT := none, alertT := none, act := some act }) ∧
    (d.faultLink = true → (enterActive w s).fm.present (.warning w) = true) := by
  set u := takeList (setWarnState w .active (activate w s)) with u_eq
  have list : Only [.ao] (setWarnState w .active (activate w s)) u := takeList_only _
  have inst : u.wm.inst[w] =
      { s.wm.inst[w] with state := .active, delayT := none, alertT := none, act := some s.wm.counter } := by
    rw [list.wm, activated_wm]
    simp only [vmod_self]
  have defs : u.wm.defs = s.wm.defs := by rw [list.wm, activated_wm]
  have linked : u.faultLinked w = d.faultLink := faultLinked_of (by rw [defs, def?])
  have eq : enterActive w s = inFreeOrder
      [(u.faultLinked w && !decide (s.wm.inst[w].state = .acked), setPresence (.warning w) true),
       (decide (u.warnPriority w = .stop) && u.sc.service && u.testsInForce, stopActivation)] u := rfl
  rw [decide_eq_false rests, linked, Bool.not_false, Bool.and_true] at eq
  refine ⟨⟨s.wm.counter, ?_⟩, fun on => ?_⟩
  · rw [← inst, eq]
    refine inFreeOrder_induct (fun t => t.wm.inst[w] = u.wm.inst[w]) rfl fun v hv t h => ?_
    simp only [List.mem_cons, Prod.mk.injEq, List.not_mem_nil, or_false] at hv
    rcases hv with ⟨-, rfl⟩ | ⟨-, rfl⟩
    · rwa [(setPresence_only t _ _).wm]
    · rwa [(stopActivation_only t).wm]
  · rw [eq]
    refine inFreeOrder_at (fun _ => True) (fun t => t.fm.present (.warning w) = true) [] [_] trivial
      (fun v hv t => ⟨fun _ => trivial, fun h => ?_⟩) (fun _ t _ => setPresence_present _ _ t)
      (fun off => absurd (on.symm.trans off) nofun)
    simp only [List.nil_append, List.mem_cons, Prod.mk.injEq, List.not_mem_nil, or_false] at hv
    rw [hv.2]
    rwa [(stopActivation_only t).fm]

/-- An ACTIVE, ACKED or RETAINED instance leaves the list or its standing (R99, R109). -/
theorem leaveActive_acts (def? : s.wm.defs[w] = some d) (st : WarnState) :
    (leaveActive w st s).wm.inst[w] = { s.wm.inst[w] with state := st, delayT := none, alertT := none } ∧
    (s.wm.inst[w].state = .active ∨ s.wm.inst[w].state = .acked → d.faultLink = true →
      (leaveActive w st s).fm.present (.warning w) = false) := by
  set u := setWarnState w st (s.modInst w fun i => { i with delayT := none, alertT := none }) with u_eq
  set v := handList w st u with v_eq
  have inst : v.wm.inst[w] = { s.wm.inst[w] with state := st, delayT := none, alertT := none } ∧
      v.wm.defs = s.wm.defs := by
    rw [v_eq, handList, (takeList_only _).wm]
    have stored : u.wm.inst[w] = { s.wm.inst[w] with state := st, delayT := none, alertT := none } := by
      rw [u_eq, setWarnState_wm]
      simp only [vmod_self]
    split <;> exact ⟨stored, rfl⟩
  have linked : v.faultLinked w = d.faultLink := faultLinked_of (by rw [inst.2, def?])
  have eq : leaveActive w st s =
      if (decide (s.wm.inst[w].state = .active) || decide (s.wm.inst[w].state = .acked)) && d.faultLink then
        setPresence (.warning w) false v else v := by
    rw [← linked]
    rfl
  have same : (leaveActive w st s).wm = v.wm := by
    rw [eq]
    split
    · exact (setPresence_only v _ _).wm
    · rfl
  refine ⟨by rw [same, inst.1], fun stood on => ?_⟩
  have hands : ((decide (s.wm.inst[w].state = .active) || decide (s.wm.inst[w].state = .acked)) && d.faultLink) = true := by
    simpa [on] using stood
  rw [eq, if_pos hands]
  exact setPresence_present _ _ v

/-- Every case of an instance that is asked. -/
theorem actOn_acts (def? : s.wm.defs[w] = some d) (q : Bool) : State.Acted w d s.wm.inst[w] q (actOn w d q s) := by
  have entered (rests : s.wm.inst[w].state ≠ .acked)
      (acted : ∀ act, s.wm.inst[w].acted d q act =
        { s.wm.inst[w] with state := .active, delayT := none, alertT := none, act })
      (notStood : s.wm.inst[w].state ≠ .active) : State.Acted w d s.wm.inst[w] q (enterActive w s) := by
    obtain ⟨⟨act, inst⟩, present⟩ := enterActive_acts def? rests
    refine ⟨?_, fun _ _ => ⟨by rw [inst]; rfl, present⟩, fun stood => (stood.elim notStood rests).elim⟩
    rw [acted, inst]
  have left (st : WarnState) (notActive : st ≠ .active)
      (acted : ∀ act, s.wm.inst[w].acted d q act = { s.wm.inst[w] with state := st, delayT := none, alertT := none }) :
      State.Acted w d s.wm.inst[w] q (leaveActive w st s) := by
    obtain ⟨inst, absent⟩ := leaveActive_acts def? st
    refine ⟨?_, fun active => ?_, fun stood _ => absent stood⟩
    · rw [acted, inst]
    · rw [inst] at active
      exact absurd active notActive
  unfold actOn
  split
  case h_1 state =>
    unfold startWarning
    split
    case isTrue now =>
      exact entered (by rw [state]; nofun) (fun act => by simp only [WarnInst.acted, state, now, if_true])
        (by rw [state]; nofun)
    case isFalse later =>
      have inst : (setWarnState w .delaying (s.modInst w fun i => { i with delayT := some (d.delay * 100) })).wm.inst[w] =
          { s.wm.inst[w] with state := .delaying, delayT := some (d.delay * 100) } := by
        rw [setWarnState_wm]
        simp only [vmod_self]
      refine ⟨?_, fun active => ?_, fun stood => absurd stood (by rw [state]; decide)⟩
      · rw [inst, Nat.mul_comm]
        simp only [WarnInst.acted, state, later, if_false]
      · rw [inst] at active
        exact absurd active nofun
  case h_2 state =>
    have inst : (setWarnState w .inactive (s.modInst w fun i => { i with delayT := none })).wm.inst[w] =
        { s.wm.inst[w] with state := .inactive, delayT := none } := by
      rw [setWarnState_wm]
      simp only [vmod_self]
    refine ⟨?_, fun active => ?_, fun stood => absurd stood (by rw [state]; decide)⟩
    · rw [inst]
      simp only [WarnInst.acted, state]
    · rw [inst] at active
      exact absurd active nofun
  case h_3 state =>
    exact left _ (by split <;> nofun) fun act => by simp only [WarnInst.acted, state]
  case h_4 state =>
    exact left _ nofun fun act => by simp only [WarnInst.acted, state]
  case h_5 state =>
    exact entered (by rw [state]; nofun) (fun act => by simp only [WarnInst.acted, state]) (by rw [state]; nofun)
  case h_6 =>
    refine ⟨Eq.symm ?_, fun active notActive => absurd active notActive, fun stood gone => absurd gone ?_⟩
    · unfold WarnInst.acted
      split <;> simp_all
    · rcases stood with stood | stood <;> rw [stood] <;> decide

end

end Sys2Proof.Machine
end

section
/-! PROOFS. The hand-overs to the Warning Manager (R97): which instances an evaluation asks, and on what condition values. -/

namespace Sys2Proof.Machine

set_option Elab.async false

section
variable {w : Fin 64} {d : WarnDef} {s t : State} {reads : Condition → Bool} {motion : Bool} {v : View}

/-- An evaluation asks the definition. -/
def WarnDef.askedBy (d : WarnDef) (reads : Condition → Bool) (motion : Bool) : Bool :=
  reads d.cond || (motion && d.readsMotion)

/-- An instance with its condition value brought up to date. -/
def WarnInst.updated (x : WarnInst) (d : WarnDef) (reads : Condition → Bool) (v : View) : WarnInst :=
  { x with cond := if reads d.cond then d.cond.value v x.cond else x.cond }

theorem updateConds_inst (def? : s.wm.defs[w] = some d) (reads : Condition → Bool) (v : View) :
    (updateConds reads v s).wm.inst[w] = s.wm.inst[w].updated d reads v := by
  refine (tab_get _ w).trans ?_
  simp only [def?, WarnInst.updated]
  split <;> rfl

/-- An evaluation that does not read what a definition reads leaves its instance. -/
theorem evaluate_unasked (def? : s.wm.defs[w] = some d) (off : d.askedBy reads motion = false) :
    s.Unasked w d (evaluate reads motion s) := by
  obtain ⟨noCond, -⟩ := Bool.or_eq_false_iff.1 off
  unfold evaluate
  split
  · exact .refl w d s
  · split
    case h_1 v _ =>
      have updated : s.Unasked w d (updateConds reads v s) := by
        refine .ofInst rfl rfl ?_ rfl
        rw [updateConds_inst def?, WarnInst.updated, if_neg (ne_true_of_eq_false noCond)]
      refine forEach_induct (s.Unasked w d) _ _ updated fun x t h => ?_
      by_cases same : x = w
      · subst same
        have stands : askWarning (fun d => reads d.cond || (motion && d.readsMotion)) v x t = t := by
          rw [askWarning, h.defs, def?]
          exact if_neg (ne_true_of_eq_false off)
        rwa [stands]
      · exact h.trans (askWarning_unasked same _ v t)
    case h_2 => exact .refl w d s

/-- An evaluation in RUN asks each definition that reads what it hands, on the view as it stands. -/
theorem evaluate_asks (run : s.sc.opState = .run) (view : s.wm.view = some v) (def? : s.wm.defs[w] = some d)
    (on : d.askedBy reads motion = true) :
    State.Acted w d (s.wm.inst[w].updated d reads v) ((s.wm.inst[w].updated d reads v).qualified d v)
      (evaluate reads motion s) := by
  have eq : evaluate reads motion s =
      forEach (askWarning (fun d => reads d.cond || (motion && d.readsMotion)) v) (updateConds reads v s) := by
    unfold evaluate
    rw [if_neg (not_not_intro run), view]
  rw [eq]
  refine forEach_at ((updateConds reads v s).Unasked w d)
    (State.Acted w d (s.wm.inst[w].updated d reads v) ((s.wm.inst[w].updated d reads v).qualified d v)) w (.refl w d _)
    (fun x other t h => h.trans (askWarning_unasked other _ v t)) (fun t h => ?_)
    fun x other t h => h.rests (askWarning_unasked (d := d) other _ v t)
  have def' : t.wm.defs[w] = some d := by
    rw [h.defs]
    exact def?
  have inst : t.wm.inst[w] = s.wm.inst[w].updated d reads v := by rw [h.inst, updateConds_inst def?]
  have asks : askWarning (fun d => reads d.cond || (motion && d.readsMotion)) v w t =
      actOn w d ((s.wm.inst[w].updated d reads v).qualified d v) t := by
    rw [askWarning, def', ← inst]
    exact if_pos on
  rw [asks, ← inst]
  exact actOn_acts def' _

/-! ## The view changed and handed (R97) -/

section
variable {f : View → View}

theorem changeView_unasked (chan : ∀ v, (f v).chan = v.chan) (motion : d.gating ≠ .always → ∀ v, (f v).motion = v.motion)
    (s : State) : s.Unasked w d (changeView f s) := by
  unfold changeView
  split
  · refine ⟨rfl, rfl, ?_, fun gated => ?_, rfl⟩
    · show (s.wm.view.map f).map (·.chan) = _
      rw [Option.map_map]
      exact congrArg (fun g => s.wm.view.map g) (funext chan)
    · show (s.wm.view.map f).map (·.motion) = _
      rw [Option.map_map]
      exact congrArg (fun g => s.wm.view.map g) (funext (motion gated))
  · exact .refl w d s

theorem changeView_run (run : s.sc.opState = .run) :
    changeView f s = s.modWm fun m => { m with view := m.view.map f } := if_pos run

theorem handed_unasked (chan : ∀ v, (f v).chan = v.chan) (kept : d.gating ≠ .always → ∀ v, (f v).motion = v.motion)
    (def? : s.wm.defs[w] = some d) (off : d.askedBy reads motion = false) :
    s.Unasked w d (evaluate reads motion (changeView f s)) := by
  have changed : s.Unasked w d (changeView f s) := changeView_unasked chan kept s
  exact changed.trans (evaluate_unasked (by rw [changed.defs, def?]) off)

theorem handed_asks (run : s.sc.opState = .run) (view : s.wm.view = some v) (def? : s.wm.defs[w] = some d)
    (on : d.askedBy reads motion = true) :
    State.Acted w d (s.wm.inst[w].updated d reads (f v)) ((s.wm.inst[w].updated d reads (f v)).qualified d (f v))
      (evaluate reads motion (changeView f s)) := by
  rw [changeView_run run]
  refine evaluate_asks (s := s.modWm fun m => { m with view := m.view.map f }) run ?_ def? on
  show s.wm.view.map f = some (f v)
  rw [view]
  rfl

end

/-! ## Who hands what -/

theorem readsMotion_iff : d.readsMotion = true ↔ d.cond = .motionUnknown ∨ d.gating ≠ .always := by
  rw [WarnDef.readsMotion, Bool.or_eq_true, decide_eq_true_eq, decide_eq_true_eq]

theorem handMotionToWm_unasked (def? : s.wm.defs[w] = some d) (always : d.gating = .always) (cond : d.cond ≠ .motionUnknown) :
    s.Unasked w d (handMotionToWm s) := by
  refine handed_unasked (fun _ => rfl) (fun gated => absurd always gated) def? ?_
  rw [WarnDef.askedBy, decide_eq_false cond, Bool.true_and, Bool.false_or, ← Bool.not_eq_true, readsMotion_iff]
  exact fun h => h.elim cond fun gated => gated always

theorem handDisplay_unasked {g : Fin 8} (def? : s.wm.defs[w] = some d) (off : d.cond.readsGauge g = false) :
    s.Unasked w d (handDisplay g s) :=
  handed_unasked (fun _ => rfl) (fun _ _ => rfl) def? (by rw [WarnDef.askedBy, off]; rfl)

theorem handDoorCond_unasked {l : Fin 8} (c : DoorCond) (def? : s.wm.defs[w] = some d) (off : d.cond.readsLeaf l = false) :
    s.Unasked w d (handDoorCond l c s) :=
  handed_unasked (fun _ => rfl) (fun _ _ => rfl) def? (by rw [WarnDef.askedBy, off]; rfl)

theorem evaluateChannels_unasked {chs : List (Fin 40)} (def? : s.wm.defs[w] = some d)
    (off : chs.any d.cond.readsChannel = false) : s.Unasked w d (evaluateChannels chs s) :=
  evaluate_unasked def? (by rw [WarnDef.askedBy, off]; rfl)

end

end Sys2Proof.Machine
end

section
/-! PROOFS. What the work of the Warning Manager and the Door Monitor leaves of the gauges: a STOP warning may end tests (R185), and
nothing else reaches them. -/

namespace Sys2Proof.Machine

set_option Elab.async false

/-! ## One evaluation of a leaf concluded (R138) -/

/-- The leaf as an evaluation leaves it (R137). -/
def LeafRun.result (r : LeafRun) (s : State) : Leaf := { r.leaf with inputFault := s.inputFaultNow r.leaf }

/-- The leaf and its statistics stored. -/
def State.leafStored (s : State) (i : Fin 8) (r : LeafRun) : State :=
  s.modDm fun d => { d with leaves := vset d.leaves i (r.result s), stats := vset d.stats i r.stats }

/-- The reports of the leaf placed. -/
def State.leafReported (s : State) (i : Fin 8) (r : LeafRun) : State :=
  let t := r.entered.foldl (fun t st => report .leafState i.val (val st.code) t) s
  match r.closing with
  | some n => report .closingTime i.val (val n) t
  | none => t

/-- The DM's own work on an evaluation, before it hands on what has changed. -/
def State.leafConcluded (s : State) (i : Fin 8) (r : LeafRun) : State :=
  let t := (s.leafStored i r).leafReported i r
  if r.entered = [] then t else deriveDoorsClear (deriveDoorwayOf (r.result s) t)

section
variable (i : Fin 8) (r : LeafRun) (s : State)

theorem concludeLeaf_eq : concludeLeaf i r s =
    inFreeOrder
      [(decide (s.leafConcluded i r).inRun && decide ((s.leafConcluded i r).dm.conds[i] ≠ some (r.result s).conds),
          handConds i),
       (decide (s.dm.leaves[i].lockFault ≠ (r.result s).lockFault), setPresence (.doorLock i) (r.result s).lockFault),
       (r.closing.isSome && (r.result s).slow, fireSource (.doorSlow i)),
       (decide (s.dm.leaves[i].inputFault ≠ (r.result s).inputFault), setPresence (.doorInput i) (r.result s).inputFault),
       (decide ((s.leafConcluded i r).sc.opState = .shutdown) && decide (r.stats ≠ s.dm.stats[i]), queueDoorStats)]
      (s.leafConcluded i r) := rfl

theorem leafReported_only : Only [.reports] s (s.leafReported i r) := by
  have states : Only [.reports] s (r.entered.foldl (fun t st => report .leafState i.val (val st.code) t) s) :=
    Only.foldl fun _ _ => report_only _ _ _ _
  unfold State.leafReported
  dsimp only
  split
  · exact states.trans (report_only _ _ _ _)
  · exact states

theorem leafConcluded_only : Only [.reports, .dm] s (s.leafConcluded i r) := by
  have placed : Only [.reports, .dm] s ((s.leafStored i r).leafReported i r) :=
    (modDm_only s _).mono.andThen (leafReported_only i r _)
  unfold State.leafConcluded
  dsimp only
  split
  · exact placed
  · exact (placed.andThen (deriveDoorwayOf_only _ _)).andThen (deriveDoorsClear_only _)

end

/-! ## What survives the warnings' work -/

/-- What the Warning Manager's work can change by itself, with the doors and the Fault Memory. -/
abbrev quietParts : List Part := [.reports, .wm, .dm, .fm, .jc, .free]

/-- A property that the warnings' work keeps: it stands where no gauge, output, channel or flag changes, where the outputs take
the list, and where a STOP warning ends tests. -/
structure WarnWork (P : State → Prop) : Prop where
  quiet : ∀ {t u : State}, Only quietParts t u → P t → P u
  list  : ∀ t, P t → P (takeList t)
  stop  : ∀ t, P t → P (stopActivation t)

namespace WarnWork

variable {P : State → Prop} (h : WarnWork P) {s : State}
include h

theorem setWarnState (w : Fin 64) (st : WarnState) (f : WarnInst → WarnInst) (start : P s) :
    P (Machine.setWarnState w st (s.modInst w f)) :=
  h.quiet ((modInst_only s w f).mono.andThen (setWarnState_only _ _ _)) start

theorem enterActive (w : Fin 64) (start : P s) : P (Machine.enterActive w s) := by
  refine inFreeOrder_induct P (h.quiet (.free (by decide)) (h.list _
    (h.quiet ((activate_only s w).mono.andThen (setWarnState_only _ _ _)) start))) fun u hu t ht => ?_
  simp only [List.mem_cons, Prod.mk.injEq, List.not_mem_nil, or_false] at hu
  rcases hu with ⟨-, rfl⟩ | ⟨-, rfl⟩
  · exact h.quiet (setPresence_only t _ _).mono ht
  · exact h.stop t ht

theorem leaveActive (w : Fin 64) (st : WarnState) (start : P s) : P (Machine.leaveActive w st s) := by
  refine h.quiet (handAbsence_only _ w _).mono (h.list _ ?_)
  split
  · exact h.quiet (modWm_only _ _).mono (h.setWarnState w st _ start)
  · exact h.setWarnState w st _ start

theorem actOn (w : Fin 64) (d : WarnDef) (q : Bool) (start : P s) : P (Machine.actOn w d q s) := by
  unfold Machine.actOn
  split
  · unfold startWarning
    split
    · exact h.enterActive w start
    · exact h.setWarnState w .delaying _ start
  · exact h.setWarnState w .inactive _ start
  · exact h.leaveActive w _ start
  · exact h.leaveActive w .inactive start
  · exact h.enterActive w start
  · exact start

theorem askWarning (reads : WarnDef → Bool) (v : View) (w : Fin 64) (start : P s) :
    P (Machine.askWarning reads v w s) := by
  unfold Machine.askWarning
  split
  · split
    · exact h.actOn w _ _ start
    · exact start
  · exact start

theorem evaluate (reads : Condition → Bool) (motion : Bool) (start : P s) : P (Machine.evaluate reads motion s) := by
  unfold Machine.evaluate
  split
  · exact start
  · split
    · exact forEach_induct P _ _ (h.quiet (updateConds_only s _ _).mono start) fun w t ht => h.askWarning _ _ w ht
    · exact start

theorem handed (reads : Condition → Bool) (motion : Bool) (f : View → View) (start : P s) :
    P (Machine.evaluate reads motion (changeView f s)) :=
  h.evaluate reads motion (h.quiet (changeView_only s f).mono start)

theorem handDisplay (g : Fin 8) (start : P s) : P (Machine.handDisplay g s) :=
  h.handed (·.readsGauge g) false (fun v => { v with display := vset v.display g s.ge[g].display }) start

theorem handDoorCond (l : Fin 8) (c : DoorCond) (start : P s) : P (Machine.handDoorCond l c s) :=
  h.handed (·.readsLeaf l) false (fun v => { v with door := vset v.door l c }) start

theorem handSupplyToWm (start : P s) : P (Machine.handSupplyToWm s) :=
  h.handed Condition.readsSupply false (fun v => { v with supply := s.ci.supply }) start

theorem handMotionToWm (start : P s) : P (Machine.handMotionToWm s) :=
  h.handed (fun c => decide (c = .motionUnknown)) true (fun v => { v with motion := s.ci.motion }) start

theorem handConds (i : Fin 8) (start : P s) : P (Machine.handConds i s) :=
  h.handDoorCond i s.dm.leaves[i].conds (h.quiet (modDm_only s _).mono start)

theorem concludeLeaf (i : Fin 8) (r : LeafRun) (start : P s) : P (Machine.concludeLeaf i r s) := by
  rw [concludeLeaf_eq]
  refine inFreeOrder_induct P (h.quiet ((leafConcluded_only i r s).mono.trans (.free (by decide))) start) fun u hu t ht => ?_
  simp only [List.mem_cons, Prod.mk.injEq, List.not_mem_nil, or_false] at hu
  rcases hu with ⟨-, rfl⟩ | ⟨-, rfl⟩ | ⟨-, rfl⟩ | ⟨-, rfl⟩ | ⟨-, rfl⟩
  · exact h.handConds i ht
  · exact h.quiet (setPresence_only t _ _).mono ht
  · exact h.quiet (fireSource_only t _).mono ht
  · exact h.quiet (setPresence_only t _ _).mono ht
  · exact h.quiet (queueDoorStats_only t).mono ht

end WarnWork

/-! ## What a gauge shows -/

/-- Two gauges show the same from the same record: what a hand-over of channels derives, and nothing of the pointer. -/
structure Gauge.Shows (x y : Gauge) : Prop where
  record  : y.record = x.record
  curve   : y.curve = x.curve
  pos     : y.pos = x.pos
  display : y.display = x.display
  range   : y.range = x.range
  target  : y.target = x.target
  limited : y.limited = x.limited

section
variable {x y z : Gauge}

theorem Gauge.Shows.refl (x : Gauge) : x.Shows x := ⟨rfl, rfl, rfl, rfl, rfl, rfl, rfl⟩

theorem Gauge.Shows.trans (h : x.Shows y) (k : y.Shows z) : x.Shows z :=
  ⟨k.record.trans h.record, k.curve.trans h.curve, k.pos.trans h.pos, k.display.trans h.display, k.range.trans h.range,
    k.target.trans h.target, k.limited.trans h.limited⟩

theorem endsTest_shows (x : Gauge) : x.Shows x.endsTest := by
  unfold Gauge.endsTest
  split
  · exact ⟨rfl, rfl, rfl, rfl, rfl, rfl, rfl⟩
  · split <;> exact ⟨rfl, rfl, rfl, rfl, rfl, rfl, rfl⟩

end

/-- The end of tests leaves the gauges as they were, or each at the end of its test. -/
theorem stopActivation_ge (s : State) :
    (stopActivation s).ge = s.ge ∨ (stopActivation s).ge = vmap Gauge.endsTest s.ge := by
  unfold stopActivation
  split
  · unfold endTests
    split
    · refine .inr ?_
      rw [endTestsAtBlocks, (alertsEndTests_only _).ge]
      exact forEach_gauges (report .testEnded 0 (val EndCause.stopWarning.code) s) Gauge.endsTest fun g t _ =>
        ⟨endGaugeTest_ge g t, (endGaugeTest_only t g).ci⟩
    · exact .inl rfl
  · exact .inl rfl

/-- What a gauge shows survives the warnings' work. -/
theorem shows_work (x : Gauge) (g : Fin 8) : WarnWork fun t => x.Shows t.ge[g] where
  quiet only h := by rwa [only.ge]
  list t h := by rwa [(takeList_only t).ge]
  stop t h := by
    rcases stopActivation_ge t with same | ended
    · rwa [same]
    · rw [ended, vmap_get]
      exact h.trans (endsTest_shows _)

end Sys2Proof.Machine
end

section
/-! PROOFS. A hand-over of the Channel Interpreter (R51, R67) as a run of its parts, each at most once and in a free order: one gauge,
one leaf, the warnings that read a channel, the presences, the motion state (log 10, log 11). -/

namespace Sys2Proof.Machine

set_option Elab.async false

/-! ## The parts of a hand-over -/

/-- What the Channel Interpreter hands: the channels that have changed, whether every gauge derives, and presences. -/
structure HandOver where
  chs    : List (Fin 40)
  all    : Bool
  faults : List (FaultSource × Bool)

/-- One part of a hand-over. -/
inductive HandPart where
  | gauge (g : Fin 8) | leaf (i : Fin 8) | warnings | faults | motion
  deriving DecidableEq

/-- A gauge derives where it is handed. -/
def HandOver.gaugeTakes (h : HandOver) (g : Fin 8) (t : State) : State :=
  if h.all || t.gaugeReads h.chs g then deriveGauge g t else t

/-- A leaf takes the channels it names. -/
def HandOver.leafTakes (h : HandOver) (i : Fin 8) (t : State) : State :=
  if t.dm.leaves[i].names h.chs then
    if t.live then evaluateLeaf h.chs i t
    else if t.sc.opState = .parked then recordReadings h.chs i t
    else t
  else t

/-- One part acts. -/
def HandOver.run (h : HandOver) : HandPart → State → State
  | .gauge g => h.gaugeTakes g
  | .leaf i => h.leafTakes i
  | .warnings => evaluateChannels h.chs
  | .faults => handPresences h.faults
  | .motion => handMotion

/-- Some parts act one after another. -/
def HandOver.runAll (h : HandOver) (ps : List HandPart) (t : State) : State := ps.foldl (fun t p => h.run p t) t

/-- The blocks with what they do, and whether they have something to do. -/
def HandOver.groups (h : HandOver) (moved : Bool) (s : State) : List (Bool × List HandPart) :=
  [(h.all || (List.finRange 8).any (s.gaugeReads h.chs), (List.finRange 8).map .gauge),
   ((List.finRange 8).any fun l => s.dm.leaves[l].names h.chs, (List.finRange 8).map .leaf),
   (s.warnReads h.chs && decide s.inRun, [.warnings]),
   (s.presenceDiffers h.faults, [.faults]),
   (moved, [.motion])]

/-- The blocks' work as units of a free order. -/
def HandOver.units (h : HandOver) (groups : List (Bool × List HandPart)) : List (Bool × (State → State)) :=
  groups.map fun g => (g.1, h.runAll g.2)

/-- What the CI hands since `before`. -/
def State.handOver (s : State) (before : Interp) (all : Bool) (faults : List (FaultSource × Bool)) : HandOver :=
  { chs := changedChannels before s.ci, all, faults }

/-- A hand-over of channels and, where it has changed, the motion state. -/
theorem handChannels_eq (before : Interp) (all moved : Bool) (faults : List (FaultSource × Bool)) (s : State) :
    handChannels before all faults [(moved, handMotion)] s =
      inFreeOrder ((s.handOver before all faults).units ((s.handOver before all faults).groups moved s))
        (viewChannels (changedChannels before s.ci) s) := by
  have gauges (h : HandOver) : h.runAll ((List.finRange 8).map .gauge) = forEach h.gaugeTakes := by
    funext t
    exact List.foldl_map
  have leaves (h : HandOver) : h.runAll ((List.finRange 8).map .leaf) = doorsTake h.chs := by
    funext t
    exact List.foldl_map
  unfold handChannels HandOver.units HandOver.groups
  simp only [List.map_cons, List.map_nil, gauges, leaves]
  cases all with
  | false =>
    have read : forEach (s.handOver before false faults).gaugeTakes = deriveGauges (changedChannels before s.ci) := rfl
    rw [read]
    rfl
  | true =>
    have every : forEach (s.handOver before true faults).gaugeTakes = forEach deriveGauge := rfl
    rw [every]
    rfl

/-- A hand-over without motion is one whose motion state has not changed. -/
theorem handChannels_still (before : Interp) (all : Bool) (faults : List (FaultSource × Bool)) (s : State) :
    handChannels before all faults [] s = handChannels before all faults [(false, handMotion)] s := rfl

/-! ## One part among all -/

/-- A part has something to do. -/
def HandOver.active (h : HandOver) (moved : Bool) (s : State) : HandPart → Bool
  | .gauge _ => h.all || (List.finRange 8).any (s.gaugeReads h.chs)
  | .leaf _ => (List.finRange 8).any fun l => s.dm.leaves[l].names h.chs
  | .warnings => s.warnReads h.chs && decide s.inRun
  | .faults => s.presenceDiffers h.faults
  | .motion => moved

theorem groups_split (h : HandOver) (moved : Bool) (s : State) (p : HandPart) : ∃ pre post before after,
    h.groups moved s = pre ++ (h.active moved s p, before ++ p :: after) :: post ∧ p ∉ before ∧ p ∉ after ∧
      ∀ g ∈ pre ++ post, p ∉ g.2 := by
  have row (x : Fin 8) : ∃ before after, List.finRange 8 = before ++ x :: after ∧ x ∉ before ∧ x ∉ after := by
    obtain ⟨before, after, split⟩ := List.append_of_mem (List.mem_finRange x)
    have nodup : (before ++ x :: after).Nodup := split ▸ List.nodup_finRange 8
    rw [List.nodup_middle, List.nodup_cons, List.mem_append, not_or] at nodup
    exact ⟨before, after, split, nodup.1⟩
  cases p with
  | gauge g =>
    obtain ⟨before, after, split, notBefore, notAfter⟩ := row g
    have whole : before.map HandPart.gauge ++ .gauge g :: after.map .gauge = (List.finRange 8).map .gauge := by
      rw [split, List.map_append, List.map_cons]
    refine ⟨[], (h.groups moved s).tail, before.map .gauge, after.map .gauge, ?_, ?_, ?_, ?_⟩
    · rw [whole]
      rfl
    all_goals simp [HandOver.groups, notBefore, notAfter]
  | leaf i =>
    obtain ⟨before, after, split, notBefore, notAfter⟩ := row i
    have whole : before.map HandPart.leaf ++ .leaf i :: after.map .leaf = (List.finRange 8).map .leaf := by
      rw [split, List.map_append, List.map_cons]
    refine ⟨(h.groups moved s).take 1, (h.groups moved s).drop 2, before.map .leaf, after.map .leaf, ?_, ?_, ?_, ?_⟩
    · rw [whole]
      rfl
    all_goals simp [HandOver.groups, notBefore, notAfter]
  | warnings => exact ⟨(h.groups moved s).take 2, (h.groups moved s).drop 3, [], [], rfl, nofun, nofun, by simp [HandOver.groups]⟩
  | faults => exact ⟨(h.groups moved s).take 3, (h.groups moved s).drop 4, [], [], rfl, nofun, nofun, by simp [HandOver.groups]⟩
  | motion => exact ⟨(h.groups moved s).take 4, (h.groups moved s).drop 5, [], [], rfl, nofun, nofun, by simp [HandOver.groups]⟩

/-- What holds before the turn of one part, and what its turn brings about and the other parts keep. -/
theorem handOver_at (P Q : State → Prop) {h : HandOver} {moved : Bool} {s u : State} (p : HandPart)
    (start : P { u with freeCount := u.freeCount + 1 })
    (others : ∀ q, q ≠ p → ∀ t, (P t → P (h.run q t)) ∧ (Q t → Q (h.run q t)))
    (here : h.active moved s p = true → ∀ t, P t → Q (h.run p t)) (idle : h.active moved s p = false → ∀ t, P t → Q t) :
    Q (inFreeOrder (h.units (h.groups moved s)) u) := by
  obtain ⟨pre, post, before, after, split, notBefore, notAfter, elsewhere⟩ := groups_split h moved s p
  have all (R : State → Prop) (ps : List HandPart) (off : p ∉ ps) (keeps : ∀ q, q ≠ p → ∀ t, R t → R (h.run q t)) :
      ∀ t, R t → R (h.runAll ps t) := fun t start =>
    foldl_induct R (fun t q => h.run q t) ps t start fun q hq t => keeps q (fun e => off (e ▸ hq)) t
  have units : h.units (h.groups moved s) = h.units pre ++ (h.active moved s p, h.runAll (before ++ p :: after)) ::
      h.units post := by
    rw [split]
    simp only [HandOver.units, List.map_append, List.map_cons]
  rw [units]
  refine inFreeOrder_at P Q _ _ start (fun v hv t => ?_) (fun on t ht => ?_) idle
  · obtain ⟨ps, hps, rfl⟩ : ∃ g ∈ pre ++ post, v = h.runAll g.2 := by
      simp only [HandOver.units, ← List.map_append, List.mem_map] at hv
      obtain ⟨g, hg, e⟩ := hv
      exact ⟨g, hg, (Prod.mk.inj e).2.symm⟩
    have off := elsewhere ps hps
    exact ⟨all P ps.2 off (fun q ne t => (others q ne t).1) t, all Q ps.2 off (fun q ne t => (others q ne t).2) t⟩
  · have run : h.runAll (before ++ p :: after) t = h.runAll after (h.run p (h.runAll before t)) := by
      simp only [HandOver.runAll, List.foldl_append, List.foldl_cons]
    rw [run]
    exact all Q after notAfter (fun q ne t => (others q ne t).2) _
      (here on _ (all P before notBefore (fun q ne t => (others q ne t).1) t ht))

/-- What every part keeps, a hand-over keeps. -/
theorem handOver_induct (P : State → Prop) {h : HandOver} {moved : Bool} {s u : State}
    (start : P { u with freeCount := u.freeCount + 1 }) (keeps : ∀ p, (p = .motion → moved = true) → ∀ t, P t → P (h.run p t)) :
    P (inFreeOrder (h.units (h.groups moved s)) u) := by
  refine inFreeOrder_induct P start fun v hv t ht => ?_
  obtain ⟨g, hg, e⟩ := List.mem_map.1 hv
  obtain ⟨on, rfl⟩ := Prod.mk.inj e
  refine foldl_induct P (fun t q => h.run q t) g.2 t ht fun p hp t => keeps p ?_ t
  rintro rfl
  simp only [HandOver.groups, List.mem_cons, List.not_mem_nil, or_false] at hg
  rcases hg with rfl | rfl | rfl | rfl | rfl
  · simp at hp
  · simp at hp
  · simp at hp
  · simp at hp
  · exact on

end Sys2Proof.Machine
end

section
/-! PROOFS. A hand-over at the gauges (R74 to R76): which derive, what each shows then, and that LIMITED is placed. -/

namespace Sys2Proof.Machine

set_option Elab.async false

/-! ## Reports placed among others (R9) -/

/-- Reports have been placed on a link, some given ones among them and in their order. -/
def PlacesAmong (wanted : List (Event × Nat × Option Word16)) (l m : Link) : Prop :=
  ∃ ps : List (Event × Nat × Option Word16), wanted.Sublist ps ∧ m = ps.foldl (fun l p => l.place p.1 p.2.1 p.2.2) l

section
variable {a b : List (Event × Nat × Option Word16)} {l m n : Link} {s t : State}

theorem Places.among (h : Places l m) : PlacesAmong [] l m := by
  obtain ⟨ps, rfl⟩ := h
  exact ⟨ps, List.nil_sublist _, rfl⟩

theorem PlacesAmong.one (l : Link) (e : Event) (i : Nat) (v : Option Word16) : PlacesAmong [(e, i, v)] l (l.place e i v) :=
  ⟨[(e, i, v)], List.Sublist.refl _, rfl⟩

theorem PlacesAmong.trans (h : PlacesAmong a l m) (k : PlacesAmong b m n) : PlacesAmong (a ++ b) l n := by
  obtain ⟨ps, hp, rfl⟩ := h
  obtain ⟨qs, hq, rfl⟩ := k
  exact ⟨ps ++ qs, hp.append hq, List.foldl_append.symm⟩

theorem PlacesAmong.andThen (h : PlacesAmong a l m) (k : Places m n) : PlacesAmong a l n := by
  simpa using h.trans k.among

theorem PlacesAmong.after (h : Places l m) (k : PlacesAmong a m n) : PlacesAmong a l n := by
  simpa using h.among.trans k

theorem PlacesAmong.hasPlaced (h : PlacesAmong a s.li t.li) : s.hasPlaced t a := by
  obtain ⟨ps, sub, e⟩ := h
  exact ⟨ps, sub, by rw [e], by rw [e]⟩

end

/-! ## What every part of a hand-over leaves alone -/

section
variable {P : State → Prop}

theorem WarnWork.deriveGauge (h : WarnWork P) {s : State} (g : Fin 8) (start : P s)
    (derives : ∀ r f v, P (s.modGauge g fun x => x.derived r f v)) : P (Machine.deriveGauge g s) := by
  rcases deriveGauge_cases g s with ⟨-, e⟩ | ⟨r, -, -, e⟩
  · rwa [e]
  · have stored : P (s.modGauge g fun _ => s.ge[g].derived r s.ci.refFault (s.ci.eff r.source)) :=
      derives r s.ci.refFault (s.ci.eff r.source)
    have reported (p : Prop) [Decidable p] (v : Option Word16) {t : State} (ht : P t) :
        P (if p then report .gaugeLimited g.val v t else t) := by
      split
      · exact h.quiet (report_only t _ _ _).mono ht
      · exact ht
    rw [e]
    split
    · exact h.handDisplay g (reported _ _ stored)
    · exact reported _ _ stored

theorem WarnWork.handMotion (h : WarnWork P) {s : State} (start : P s) (session : ∀ t, P t → P (endSession .motion t)) :
    P (Machine.handMotion s) := by
  refine inFreeOrder_induct P (h.quiet ((report_only s _ _ _).mono.trans (.free (by decide))) start) fun u hu t ht => ?_
  simp only [List.mem_cons, Prod.mk.injEq, List.not_mem_nil, or_false] at hu
  rcases hu with ⟨-, rfl⟩ | ⟨-, rfl⟩
  · exact h.handMotionToWm ht
  · unfold sessionTakesMotion
    split
    · exact ht
    · exact session t ht

/-- What the warnings' work keeps, with the derivation of a gauge and the end of the session, every part keeps. -/
theorem WarnWork.part (h : WarnWork P) (o : HandOver) (p : HandPart)
    (derives : ∀ g, p = .gauge g → ∀ t, P t → ∀ r f v, P (t.modGauge g fun x => x.derived r f v))
    (session : p = .motion → ∀ t, P t → P (endSession .motion t)) (t : State) (ht : P t) : P (o.run p t) := by
  cases p with
  | gauge g =>
    show P (if _ then Machine.deriveGauge g t else t)
    split
    · exact h.deriveGauge g ht (derives g rfl t ht)
    · exact ht
  | leaf i =>
    show P (if _ then (if _ then evaluateLeaf _ i t else if _ then recordReadings _ i t else t) else t)
    split
    · split
      · exact h.concludeLeaf i _ ht
      · split
        · exact h.quiet (recordReadings_only t _ i).mono ht
        · exact ht
    · exact ht
  | warnings => exact h.evaluate (fun c => o.chs.any c.readsChannel) false ht
  | faults => exact h.quiet (handPresences_only t _).mono ht
  | motion => exact h.handMotion ht (session rfl)

end

/-- What a part can change. -/
theorem handPart_only (o : HandOver) (p : HandPart) (t : State) : Only handParts t (o.run p t) := by
  cases p with
  | gauge g => exact Only.ite (deriveGauge_only t g).mono (Only.refl _ _)
  | leaf i =>
    exact Only.ite (Only.ite (evaluateLeaf_only t _ _).mono (Only.ite (recordReadings_only t _ _).mono (Only.refl _ _)))
      (Only.refl _ _)
  | warnings => exact (evaluateChannels_only t _).mono
  | faults => exact (handPresences_only t _).mono
  | motion => exact handMotion_only t

/-- A gauge shows what it showed after every part but its own. -/
theorem handPart_shows {x : Gauge} {g : Fin 8} {o : HandOver} {p : HandPart} (other : p ≠ .gauge g) (t : State)
    (h : x.Shows t.ge[g]) : x.Shows (o.run p t).ge[g] := by
  refine (shows_work x g).part o p (fun j hj u hu r f v => ?_) (fun _ u hu => ?_) t h
  · have ne : j ≠ g := fun e => other (by rw [hj, e])
    show x.Shows (vmod u.ge j _)[g]
    rwa [vmod_ne _ _ ne]
  · rcases endSession_ge .motion u with same | ended
    · rwa [same]
    · rw [ended, vmap_get]
      exact hu.trans (endsTest_shows _)

/-! ## The gauge that derives (R74 to R76) -/

section
variable {x y : Gauge} {r : GaugeRec} {f : Bool} {v : ChanView}

theorem Gauge.Shows.derived (h : x.Shows y) (r : GaugeRec) (f : Bool) (v : ChanView) :
    (x.derived r f v).Shows (y.derived r f v) := by
  have blank : (x.blank r).Shows (y.blank r) := ⟨h.record, h.curve, h.pos, rfl, rfl, rfl, h.limited⟩
  unfold Gauge.derived
  split
  · exact blank
  · split
    · exact h
    · rw [h.curve]
      exact ⟨h.record, h.curve, h.pos, rfl, rfl, rfl, congrArg (fun b => b || r.outside (curveValue x.curve _).1) h.limited⟩
    · exact blank

theorem derived_kept (x : Gauge) (r : GaugeRec) (f : Bool) (v : ChanView) : (x.derived r f v).record = x.record ∧
    (x.derived r f v).curve = x.curve ∧ (x.derived r f v).pos = x.pos := by
  unfold Gauge.derived
  split
  · exact ⟨rfl, rfl, rfl⟩
  · split <;> exact ⟨rfl, rfl, rfl⟩

theorem derived_held (held : v.status = .held) : x.derived r false v = x := by
  obtain ⟨status, value, reading⟩ := v
  subst held
  rfl

theorem derived_blank (h : f = true ∨ v.status = .init ∨ v.status = .fault ∨ v.status = .lost) :
    x.derived r f v = x.blank r := by
  obtain ⟨status, value, reading⟩ := v
  rcases h with rfl | rfl | rfl | rfl
  · rfl
  all_goals cases f <;> rfl

theorem derived_valid {n : Int} (valid : v.status = .valid) (value : v.value = some n) :
    x.derived r false v = x.show r (curveValue x.curve n).1 (curveValue x.curve n).2 := by
  obtain ⟨status, val, reading⟩ := v
  subst valid
  obtain rfl : val = some n := value
  rfl

end

theorem deriveGauge_takes {t : State} {g : Fin 8} {r : GaugeRec} (record : t.ge[g].record = some r) (live : t.live) :
    let y := t.ge[g].derived r t.ci.refFault (t.ci.eff r.source)
    y.Shows (deriveGauge g t).ge[g] ∧ (y.limited = true → t.ge[g].limited = false →
      PlacesAmong [(.gaugeLimited, g.val, valInt (y.display.getD 0))] t.li (deriveGauge g t).li) := by
  intro y
  rcases deriveGauge_cases g t with ⟨rests, -⟩ | ⟨r', record', -, e⟩
  · exact absurd live (rests.resolve_left (by rw [record]; nofun))
  · obtain rfl : r = r' := Option.some.inj (record.symm.trans record')
    set u := t.modGauge g fun _ => y with u_eq
    set w := if y.limited && !t.ge[g].limited then report .gaugeLimited g.val (valInt (y.display.getD 0)) u else u with w_eq
    have eq : deriveGauge g t = if y.display ≠ t.ge[g].display then handDisplay g w else w := e
    have reported : Only [.reports] u w := Only.ite (report_only u _ _ _) (.refl _ _)
    have handed : Places w.li (deriveGauge g t).li := by
      rw [eq]
      split
      · exact (handDisplay_only w g).placed
      · exact .refl _
    refine ⟨?_, fun limited unset => ?_⟩
    · have shown : y.Shows w.ge[g] := by
        rw [reported.ge, u_eq, State.modGauge_ge, vmod_self]
        exact .refl y
      rw [eq]
      split
      · exact (shows_work y g).handDisplay g shown
      · exact shown
    · refine PlacesAmong.andThen ?_ handed
      rw [w_eq, limited, unset, if_pos (show (true && !false) = true from rfl)]
      exact .one _ _ _ _

end Sys2Proof.Machine
end

section
/-! PROOFS. The curve as the rules give it (R75), and what a hand-over of channels leaves each gauge showing (R74 to R76). -/

namespace Sys2Proof.Machine

set_option Elab.async false

/-! ## The curve (R75) -/

/-- What a curve gives an input from its first point on: the last value beyond the curve, a point's own value at the point, and
between two points the value between theirs. -/
structure CurveAt (curve : List CurvePoint) (x : Int) (y : Int × RangeInd) : Prop where
  last   : ∀ p, curve.getLast? = some p → p.x < x → y = (p.y, .above)
  points : ∀ p ∈ curve, x = p.x → y = (p.y, .none)
  inside : ∀ (before after : List CurvePoint) (p q : CurvePoint), curve = before ++ p :: q :: after → p.x ≤ x → x < q.x →
    y = (p.between q x, .none)

theorem curveFrom_at {x : Int} {a : CurvePoint} {rest : List CurvePoint} (sorted : (a :: rest).Pairwise fun a b => a.x < b.x)
    (start : a.x ≤ x) : CurveAt (a :: rest) x (curveFrom x a rest) := by
  induction rest generalizing a with
  | nil =>
    refine ⟨fun p hp beyond => ?_, fun p hp at_ => ?_, fun before after p q split from_ below => ?_⟩
    · obtain rfl : a = p := Option.some.inj hp
      exact Prod.ext rfl (if_pos beyond)
    · obtain rfl : p = a := List.mem_singleton.1 hp
      exact Prod.ext rfl (if_neg (by omega))
    · have := congrArg List.length split
      simp only [List.length_cons, List.length_nil, List.length_append] at this
      omega
  | cons b rest ih =>
    obtain ⟨above, tail⟩ := List.pairwise_cons.1 sorted
    have step : a.x < b.x := above b List.mem_cons_self
    have later : ∀ p ∈ b :: rest, b.x ≤ p.x := fun p hp => by
      rcases List.mem_cons.1 hp with rfl | hp
      · exact Int.le_refl _
      · exact Int.le_of_lt ((List.pairwise_cons.1 tail).1 p hp)
    by_cases first : x < b.x
    · have value : curveFrom x a (b :: rest) = (a.between b x, .none) := if_pos first
      rw [value]
      refine ⟨fun p hp beyond => ?_, fun p hp at_ => ?_, fun before after p q split from_ below => ?_⟩
      · have := later p (List.mem_of_getLast? (by rwa [List.getLast?_cons_cons] at hp))
        omega
      · rcases List.mem_cons.1 hp with rfl | hp
        · rw [at_, between_start step]
        · have := later p hp
          omega
      · cases before with
        | nil =>
          obtain ⟨rfl, rest_⟩ := List.cons.inj split
          obtain ⟨rfl, -⟩ := List.cons.inj rest_
          rfl
        | cons c before =>
          obtain ⟨-, tail_⟩ := List.cons.inj split
          have := later p (by rw [tail_]; simp)
          omega
    · have value : curveFrom x a (b :: rest) = curveFrom x b rest := if_neg first
      obtain ⟨last, points, inside⟩ := ih tail (by omega)
      rw [value]
      refine ⟨fun p hp => last p (by rwa [List.getLast?_cons_cons] at hp), fun p hp at_ => ?_,
        fun before after p q split from_ below => ?_⟩
      · rcases List.mem_cons.1 hp with rfl | hp
        · omega
        · exact points p hp at_
      · cases before with
        | nil =>
          obtain ⟨rfl, rest_⟩ := List.cons.inj split
          obtain ⟨rfl, -⟩ := List.cons.inj rest_
          omega
        | cons c before =>
          obtain ⟨-, tail_⟩ := List.cons.inj split
          exact inside before after p q tail_ from_ below

/-- A rounded quotient by the sign of its dividend. -/
theorem roundHalfAway_sign (n : Int) {d : Int} (pos : 0 < d) :
    roundHalfAway n d = n.sign * ((2 * (n.natAbs : Int) + d) / (2 * d)) := by
  rcases Int.lt_trichotomy n 0 with down | rfl | up
  · rw [roundHalfAway, if_neg (by omega), Int.sign_eq_neg_one_of_neg down, Int.neg_one_mul,
      Int.ofNat_natAbs_of_nonpos (by omega)]
  · rw [roundHalfAway_zero pos, Int.sign_zero, Int.zero_mul]
  · rw [roundHalfAway, if_pos (by omega), Int.sign_eq_one_of_pos up, Int.one_mul, Int.natAbs_of_nonneg (by omega)]

theorem curveValue_gives {curve : List CurvePoint} (sorted : curve.Pairwise fun a b => a.x < b.x) (x : Int) :
    curveGives curve x (curveValue curve x).1 (curveValue curve x).2 := by
  cases curve with
  | nil =>
    refine ⟨fun _ => ?_, nofun, nofun, nofun, fun before after p q split => by simp at split⟩
    unfold curveValue
    dsimp only
    split <;> exact ⟨by omega, rfl⟩
  | cons a rest =>
    have later : ∀ p ∈ a :: rest, a.x ≤ p.x := fun p hp => by
      rcases List.mem_cons.1 hp with rfl | hp
      · exact Int.le_refl _
      · exact Int.le_of_lt ((List.pairwise_cons.1 sorted).1 p hp)
    by_cases below : x < a.x
    · have value : curveValue (a :: rest) x = (a.y, .below) := if_pos below
      rw [value]
      refine ⟨nofun, fun p hp _ => ?_, fun p hp _ => ?_, fun p hp _ => ?_, fun before after p q split from_ _ => ?_⟩
      · obtain rfl : a = p := Option.some.inj hp
        exact ⟨rfl, rfl⟩
      · have := later p (List.mem_of_getLast? hp)
        omega
      · have := later p hp
        omega
      · have := later p (by rw [split]; simp)
        omega
    · have value : curveValue (a :: rest) x = curveFrom x a rest := if_neg below
      obtain ⟨last, points, inside⟩ := curveFrom_at sorted (Int.not_lt.1 below)
      rw [value]
      refine ⟨nofun, fun p hp low => ?_, fun p hp beyond => ?_, fun p hp at_ => ?_,
        fun before after p q split from_ upto => ?_⟩
      · obtain rfl : a = p := Option.some.inj hp
        exact absurd low below
      · rw [last p hp beyond]
        exact ⟨rfl, rfl⟩
      · rw [points p hp at_]
        exact ⟨rfl, rfl⟩
      · rw [inside before after p q split from_ upto]
        refine ⟨?_, rfl⟩
        rw [CurvePoint.between, roundHalfAway_sign _ (by omega)]

/-! ## One gauge after a hand-over -/

section
variable {s t : State} {g : Fin 8}

/-- What a gauge that stood as `x` shows after a hand-over. -/
def HandOver.shows (h : HandOver) (c : Interp) (x : Gauge) : Gauge :=
  match x.record with
  | some r => if h.all || decide (r.source ∈ h.chs) then x.derived r c.refFault (c.eff r.source) else x
  | none => x

/-- A gauge after a hand-over on the channels of `c`: what it shows, and LIMITED placed since `l` where the flag is new. -/
structure GaugeHanded (h : HandOver) (c : Interp) (g : Fin 8) (x : Gauge) (l : Link) (t : State) : Prop where
  shows   : (h.shows c x).Shows t.ge[g]
  limited : (h.shows c x).limited = true → x.limited = false →
    PlacesAmong [(.gaugeLimited, g.val, valInt ((h.shows c x).display.getD 0))] l t.li

theorem gaugeTakes_handed {h : HandOver} {c : Interp} {x : Gauge} (shown : x.Shows t.ge[g]) (ci : t.ci = c) (live : t.live) :
    GaugeHanded h c g x t.li (h.gaugeTakes g t) := by
  unfold HandOver.gaugeTakes
  cases record : x.record with
  | none =>
    have rests : deriveGauge g t = t := by
      rcases deriveGauge_cases g t with ⟨-, e⟩ | ⟨r, some, -⟩
      · exact e
      · rw [shown.record, record] at some
        exact absurd some nofun
    rw [rests, ite_self]
    have value : h.shows c x = x := by rw [HandOver.shows, record]
    exact ⟨by rwa [value], fun on off => absurd ((value ▸ on).symm.trans off) nofun⟩
  | some r =>
    have reads : t.gaugeReads h.chs g = decide (r.source ∈ h.chs) := by
      unfold State.gaugeReads
      simp only [shown.record, record]
    rw [reads]
    by_cases handed : (h.all || decide (r.source ∈ h.chs)) = true
    · have value : h.shows c x = x.derived r c.refFault (c.eff r.source) := by
        rw [HandOver.shows, record]
        exact if_pos handed
      obtain ⟨shows, limited⟩ := deriveGauge_takes (g := g) (r := r) (by rw [shown.record, record]) live
      rw [ci] at shows limited
      have same := shown.derived r c.refFault (c.eff r.source)
      rw [if_pos handed]
      refine ⟨?_, fun on off => ?_⟩
      · rw [value]
        exact same.trans shows
      · rw [value] at on ⊢
        rw [← same.display]
        exact limited (by rw [same.limited, on]) (by rw [shown.limited, off])
    · have value : h.shows c x = x := by
        rw [HandOver.shows, record]
        exact if_neg handed
      rw [if_neg handed]
      exact ⟨by rwa [value], fun on off => absurd ((value ▸ on).symm.trans off) nofun⟩

theorem GaugeHanded.rests {h : HandOver} {c : Interp} {x : Gauge} {l : Link} {u : State} (k : GaugeHanded h c g x l t)
    {p : HandPart} (other : p ≠ .gauge g) {o : HandOver} (e : u = o.run p t) : GaugeHanded h c g x l u := by
  subst e
  exact ⟨handPart_shows other t k.shows, fun on off => (k.limited on off).andThen (handPart_only o p t).placed⟩

end

end Sys2Proof.Machine
end

section
/-! PROOFS. A hand-over as a whole: its frame, the presences it hands, and the gauges (R51, R74 to R76, R148). -/

namespace Sys2Proof.Machine

set_option Elab.async false

/-- The CI has changed the channels of `s` to those of `u` in RUN or SHUTDOWN, with its own reports, and hands that over: every gauge
derives where REFERENCE_FAULT has changed, and the motion state where that has. -/
structure State.Hands (s u : State) (all moved : Bool) : Prop where
  only   : Only [.reports, .cu, .ci, .free] s u
  live   : s.live
  all    : all = true ↔ s.ci.refFault ≠ u.ci.refFault
  moved  : moved = true ↔ s.ci.motion ≠ u.ci.motion
  supply : u.ci.supply = s.ci.supply

/-- The state after the hand-over. -/
def State.handed (u : State) (before : Interp) (all moved : Bool) (faults : List (FaultSource × Bool)) : State :=
  handChannels before all faults [(moved, handMotion)] u

section
variable {s u : State} {all moved : Bool} {faults : List (FaultSource × Bool)}

theorem handed_eq (u : State) (before : Interp) (all moved : Bool) (faults : List (FaultSource × Bool)) :
    u.handed before all moved faults =
      inFreeOrder ((u.handOver before all faults).units ((u.handOver before all faults).groups moved u))
        (viewChannels (changedChannels before u.ci) u) := handChannels_eq before all moved faults u

/-- What a hand-over can change. -/
theorem handed_only (u : State) (before : Interp) (all moved : Bool) (faults : List (FaultSource × Bool)) :
    Only handParts u (u.handed before all moved faults) := by
  rw [handed_eq]
  refine handOver_induct (Only handParts u) ((viewChannels_only u _).mono.trans (.free (by decide))) fun p _ t h =>
    h.trans (handPart_only _ p t)

theorem State.Hands.sc (h : s.Hands u all moved) : u.sc = s.sc := h.only.sc

theorem State.Hands.liveAt (h : s.Hands u all moved) {t : State} (only : Only handParts u t) : t.live := by
  unfold State.live
  rw [only.opState, h.sc]
  exact h.live

/-! ## The gauges -/

theorem HandOver.shows_idle {h : HandOver} {x : Gauge} {g : Fin 8} (c : Interp)
    (idle : (h.all || (List.finRange 8).any (u.gaugeReads h.chs)) = false) (x_eq : u.ge[g] = x) : h.shows c x = x := by
  obtain ⟨noAll, none⟩ := Bool.or_eq_false_iff.1 idle
  have off := List.any_eq_false.1 none g (List.mem_finRange g)
  rw [State.gaugeReads, x_eq] at off
  unfold HandOver.shows
  cases record : x.record with
  | none => rfl
  | some r =>
    rw [record] at off
    exact if_neg (by rw [noAll, Bool.false_or]; exact off)

theorem State.Hands.gauge (h : s.Hands u all moved) (g : Fin 8) :
    GaugeHanded (u.handOver s.ci all faults) u.ci g s.ge[g] s.li (u.handed s.ci all moved faults) := by
  have view : Only [.wm] u (viewChannels (changedChannels s.ci u.ci) u) := viewChannels_only u _
  have same : u.ge[g] = s.ge[g] := by rw [h.only.ge]
  rw [handed_eq]
  refine (handOver_at (fun t => Only handParts u t ∧ s.ge[g].Shows t.ge[g])
    (fun t => Only handParts u t ∧ GaugeHanded (u.handOver s.ci all faults) u.ci g s.ge[g] s.li t) (.gauge g)
    ⟨view.mono.trans (.free (by decide)), ?_⟩ (fun q ne t => ⟨fun ⟨only, shown⟩ => ?_, fun ⟨only, taken⟩ => ?_⟩)
    (fun _ t ⟨only, shown⟩ => ?_) fun idle t ⟨only, shown⟩ => ?_).2
  · show s.ge[g].Shows (viewChannels _ u).ge[g]
    rw [view.ge, same]
    exact .refl _
  · exact ⟨only.trans (handPart_only _ q t), handPart_shows ne t shown⟩
  · exact ⟨only.trans (handPart_only _ q t), taken.rests ne rfl⟩
  · have taken := gaugeTakes_handed (h := u.handOver s.ci all faults) shown only.ci (h.liveAt only)
    exact ⟨only.trans (handPart_only _ (.gauge g) t), taken.shows, fun on off =>
      (taken.limited on off).after (h.only.placed.trans only.placed)⟩
  · have stays := HandOver.shows_idle (h := u.handOver s.ci all faults) u.ci idle same
    exact ⟨only, by rwa [stays], fun on off => absurd ((stays ▸ on).symm.trans off) nofun⟩

/-- A hand-over at the gauges as the rules have it. -/
theorem State.Hands.gaugeTakes (h : s.Hands u all moved) (g : Fin 8) :
    s.gaugeTakes (u.handed s.ci all moved faults) g := by
  set t := u.handed s.ci all moved faults with t_eq
  have ci : t.ci = u.ci := (handed_only u s.ci all moved faults).ci
  obtain ⟨shown, placed⟩ : GaugeHanded (u.handOver s.ci all faults) u.ci g s.ge[g] s.li t := h.gauge g
  unfold State.gaugeTakes
  rw [ci]
  have kept : ((u.handOver s.ci all faults).shows u.ci s.ge[g]).record = s.ge[g].record ∧
      ((u.handOver s.ci all faults).shows u.ci s.ge[g]).curve = s.ge[g].curve ∧
      ((u.handOver s.ci all faults).shows u.ci s.ge[g]).pos = s.ge[g].pos := by
    unfold HandOver.shows
    split
    · split
      · exact derived_kept _ _ _ _
      · exact ⟨rfl, rfl, rfl⟩
    · exact ⟨rfl, rfl, rfl⟩
  have stays (same : (u.handOver s.ci all faults).shows u.ci s.ge[g] = s.ge[g]) : t.ge[g].display = s.ge[g].display ∧
      t.ge[g].range = s.ge[g].range ∧ t.ge[g].target = s.ge[g].target ∧ t.ge[g].limited = s.ge[g].limited := by
    rw [same] at shown
    exact ⟨shown.display, shown.range, shown.target, shown.limited⟩
  refine ⟨shown.record.trans kept.1, shown.curve.trans kept.2.1, shown.pos.trans kept.2.2, fun none => stays ?_,
    fun r record => ?_⟩
  · rw [HandOver.shows, none]
  have value : (u.handOver s.ci all faults).shows u.ci s.ge[g] =
      if s.ci.eff r.source ≠ u.ci.eff r.source ∨ s.ci.refFault ≠ u.ci.refFault then
        s.ge[g].derived r u.ci.refFault (u.ci.eff r.source) else s.ge[g] := by
    rw [HandOver.shows, record]
    refine if_congr ?_ rfl rfl
    rw [Bool.or_eq_true, decide_eq_true_eq, or_comm]
    exact or_congr mem_changedChannels h.all
  have derived (handed : s.ci.eff r.source ≠ u.ci.eff r.source ∨ s.ci.refFault ≠ u.ci.refFault) := value.trans (if_pos handed)
  refine ⟨fun still => stays ?_, fun handed invalid => ?_, fun n handed sound valid some sorted => ?_⟩
  · rcases still with not | ⟨sound, held⟩
    · exact value.trans (if_neg not)
    · rw [value, sound, derived_held held]
      exact ite_self _
  · rw [derived handed, derived_blank invalid] at shown
    exact ⟨shown.display, shown.range, shown.target, shown.limited⟩
  · rw [derived handed, sound, derived_valid valid some] at shown placed
    set d := (curveValue s.ge[g].curve n).1 with d_eq
    have outside : r.outside d = decide (d < r.vMin ∨ r.vMax < d) := by rw [GaugeRec.outside, Bool.decide_or]
    refine ⟨d, shown.display, ?_, ?_, ?_, fun unset out => ?_⟩
    · rw [shown.range]
      exact curveValue_gives sorted n
    · rw [shown.target]
      show (r.dial d : Int) = _
      split
      · rw [dial_low ‹_›]
        rfl
      · split
        · rw [GaugeRec.dial, if_neg ‹_›, if_pos ‹_›]
        · exact dial_inside (by omega) (by omega)
    · rw [shown.limited, ← outside]
      rfl
    · exact (placed (by
        show (s.ge[g].limited || r.outside d) = true
        rw [outside, decide_eq_true out, Bool.or_true]) unset).hasPlaced

end

end Sys2Proof.Machine
end

section
/-! PROOFS. The states one evaluation of a leaf enters (R128 to R130): the table's lines, the entry test repeated, and that it settles. -/

namespace Sys2Proof.Machine

set_option Elab.async false

/-! ## The lines of the table (R130) -/

theorem firstLine_cons (b : Bool) (e : LeafState) (rest : List (Bool × LeafState)) :
    (((b, e) :: rest).find? (·.1)).map (·.2) = if b then some e else (rest.find? (·.1)).map (·.2) := by cases b <;> rfl

theorem shut_eq_perInputs (l : Leaf) : l.shut = l.perInputs := by
  simp only [Leaf.shut, Leaf.perInputs, Bool.and_eq_true, decide_eq_true_eq]

theorem line_eq_firstLine (l : Leaf) (tested : Fin 5 → Bool) :
    l.line tested = l.firstLine (fun slot r => tested slot && decide (l.readings[slot] = r)) l.state := by
  unfold Leaf.line Leaf.firstLine Leaf.lines
  cases l.state <;>
    simp only [firstLine_cons, List.find?_nil, Option.map_none, shut_eq_perInputs, Bool.and_comm, Bool.and_left_comm]

/-- The entry test of a state (R130): where it leads. -/
def Leaf.next (l : Leaf) (st : LeafState) : Option LeafState :=
  l.firstLine (fun slot r => decide (l.readings[slot] = r)) st

theorem line_all (l : Leaf) : l.line (fun _ => true) = l.next l.state := by
  rw [line_eq_firstLine]
  simp only [Bool.true_and]
  rfl

section
variable (l : Leaf)

theorem next_locked : l.next .locked = if l.readings[slotClosed] = .inactive then some .opening
    else if l.readings[slotLocked] = .inactive ∧ l.readings[slotClosed] = .active then some .closed else none := by
  simp only [Leaf.next, Leaf.firstLine, Leaf.lines, firstLine_cons, List.find?_nil, Option.map_none, decide_eq_true_eq,
    Bool.and_eq_true]

theorem next_closed : l.next .closed = if l.readings[slotClosed] = .inactive then some .opening
    else if l.readings[slotLocked] = .active ∧ l.hasLock = true then some .locked else none := by
  simp only [Leaf.next, Leaf.firstLine, Leaf.lines, firstLine_cons, List.find?_nil, Option.map_none, decide_eq_true_eq,
    Bool.and_eq_true]

/-- OPENING and CLOSING have the same lines. -/
theorem next_travelling {st : LeafState} (h : st = .opening ∨ st = .closing) : l.next st =
    if l.readings[slotClosed] = .active then some l.shut
    else if l.readings[slotEdge] = .active then some .obstructed
    else if l.readings[slotOpenEnd] = .active then some .opened else none := by
  rcases h with rfl | rfl <;>
    simp only [Leaf.next, Leaf.firstLine, Leaf.lines, firstLine_cons, List.find?_nil, Option.map_none, decide_eq_true_eq]

theorem next_opened : l.next .opened = if l.readings[slotClosed] = .active then some l.shut
    else if l.readings[slotOpenEnd] = .inactive ∧ l.hasOpenEnd = true then some .closing else none := by
  simp only [Leaf.next, Leaf.firstLine, Leaf.lines, firstLine_cons, List.find?_nil, Option.map_none, decide_eq_true_eq,
    Bool.and_eq_true]

theorem next_obstructed : l.next .obstructed = if l.readings[slotClosed] = .active then some l.shut
    else if l.readings[slotEdge] = .inactive then some .opening else none := by
  simp only [Leaf.next, Leaf.firstLine, Leaf.lines, firstLine_cons, List.find?_nil, Option.map_none, decide_eq_true_eq]

/-- Behind a closed switch a leaf rests where its lock input puts it. -/
theorem next_shut (closed : l.readings[slotClosed] = .active) : l.next l.shut = none := by
  unfold Leaf.shut
  split
  next locked =>
    rw [next_locked, closed, locked.2]
    rfl
  next unlocked =>
    rw [next_closed, closed, if_neg nofun, if_neg fun h => unlocked ⟨h.2, h.1⟩]

/-- The states that the entry test enters, at most so many. -/
def Leaf.chain (l : Leaf) : Nat → LeafState → List LeafState
  | 0, _ => []
  | n + 1, st => match l.next st with
    | some e => e :: l.chain n e
    | none => []

/-- The entry test settles within `n` further states. -/
def Leaf.settles (l : Leaf) : Nat → LeafState → Prop
  | 0, st => l.next st = none
  | n + 1, st => ∀ e, l.next st = some e → l.settles n e

theorem settles_of_none {l : Leaf} {st : LeafState} (h : l.next st = none) (n : Nat) : l.settles n st := by
  cases n with
  | zero => exact h
  | succ n => exact fun e he => absurd (h.symm.trans he) nofun

theorem entryTest_chain {l : Leaf} {n : Nat} {st : LeafState} (h : l.settles n st) {m : Nat} (room : n < m) :
    l.entryTest st (l.chain m st) := by
  induction n generalizing st m with
  | zero =>
    obtain ⟨k, rfl⟩ := Nat.exists_eq_add_of_lt room
    have none : l.next st = none := h
    have empty : l.chain (0 + k + 1) st = [] := by rw [Leaf.chain, none]
    rw [empty]
    exact none
  | succ n ih =>
    obtain ⟨k, rfl⟩ := Nat.exists_eq_add_of_lt room
    unfold Leaf.chain
    cases hn : l.next st with
    | none => exact hn
    | some e => exact ⟨hn, ih (h e hn) (by omega)⟩

/-- From OPENING or CLOSING at most one further state is entered. -/
theorem settles_travelling {st : LeafState} (h : st = .opening ∨ st = .closing) : l.settles 1 st := by
  intro e he
  rw [next_travelling l h] at he
  show l.next e = none
  split at he
  next closed =>
    obtain rfl := Option.some.inj he
    exact next_shut l closed
  next ajar =>
    split at he
    next edge =>
      obtain rfl := Option.some.inj he
      rw [next_obstructed, if_neg ajar, edge]
      rfl
    next =>
      split at he
      next openEnd =>
        obtain rfl := Option.some.inj he
        rw [next_opened, if_neg ajar, openEnd]
        rfl
      next => exact absurd he nofun

/-- The entry test settles after at most two further states (R130). -/
theorem settles_two (st : LeafState) : l.settles 2 st := by
  cases st with
  | locked =>
    intro e he
    rw [next_locked] at he
    split at he
    next =>
      obtain rfl := Option.some.inj he
      exact settles_travelling l (.inl rfl)
    next =>
      split at he
      next unlocked =>
        obtain rfl := Option.some.inj he
        refine settles_of_none ?_ 1
        rw [next_closed, unlocked.1, unlocked.2]
        rfl
      next => exact absurd he nofun
  | closed =>
    intro e he
    rw [next_closed] at he
    split at he
    next =>
      obtain rfl := Option.some.inj he
      exact settles_travelling l (.inl rfl)
    next shut =>
      split at he
      next locked =>
        obtain rfl := Option.some.inj he
        refine settles_of_none ?_ 1
        rw [next_locked, if_neg shut, locked.1]
        rfl
      next => exact absurd he nofun
  | opening => exact fun e he => settles_of_none (settles_travelling l (.inl rfl) e he) 1
  | closing => exact fun e he => settles_of_none (settles_travelling l (.inr rfl) e he) 1
  | opened =>
    intro e he
    rw [next_opened] at he
    split at he
    next closed =>
      obtain rfl := Option.some.inj he
      exact settles_of_none (next_shut l closed) 1
    next =>
      split at he
      next =>
        obtain rfl := Option.some.inj he
        exact settles_travelling l (.inr rfl)
      next => exact absurd he nofun
  | obstructed =>
    intro e he
    rw [next_obstructed] at he
    split at he
    next closed =>
      obtain rfl := Option.some.inj he
      exact settles_of_none (next_shut l closed) 1
    next =>
      split at he
      next =>
        obtain rfl := Option.some.inj he
        exact settles_travelling l (.inl rfl)
      next => exact absurd he nofun
  | released => exact settles_of_none rfl 2
  | unknown => exact settles_of_none rfl 2

theorem chain_tests (st : LeafState) : l.entryTest st (l.chain 3 st) := entryTest_chain (settles_two l st) (by decide)

end

/-! ## The states of one evaluation (R128) -/

/-- The states that one evaluation enters, in order. -/
def Leaf.entries (l : Leaf) (changed : Fin 5 → Bool) : List LeafState :=
  if l.blind then (if l.state = .unknown then [] else [.unknown])
  else if l.pulled then (if l.state = .released then [] else [.released])
  else if l.state = .unknown ∨ l.state = .released then [l.rederived]
  else match l.line changed with
    | some st => st :: l.chain 3 st
    | none => []

/-- A leaf moved through some states. -/
def LeafRun.moves (r : LeafRun) (es : List LeafState) : LeafRun := es.foldl LeafRun.move r

theorem enter_sees (l : Leaf) (live : Bool) (st : LeafState) : l.SeesAs (l.enter live st) ∧ (l.enter live st).state = st := by
  unfold Leaf.enter
  dsimp only
  split
  · unfold Leaf.timersFor
    split <;> exact ⟨⟨rfl, rfl, rfl⟩, rfl⟩
  · exact ⟨⟨rfl, rfl, rfl⟩, rfl⟩

/-- A transition that leaves CLOSING by the closed switch is measured, and enters its state as any other. -/
theorem move_cases (r : LeafRun) (st : LeafState) :
    (r.leaf.state = .closing ∧ (st = .closed ∨ st = .locked) ∧
      r.move st = (r.enter st).measure (min 65535 (r.leaf.closingT.getD 0 / 10))) ∨
    (¬ (r.leaf.state = .closing ∧ (st = .closed ∨ st = .locked)) ∧ r.move st = r.enter st) := by
  by_cases h : (decide (r.leaf.state = .closing) && (decide (st = .closed) || decide (st = .locked))) = true
  · have measured := h
    rw [Bool.and_eq_true, Bool.or_eq_true, decide_eq_true_eq, decide_eq_true_eq, decide_eq_true_eq] at measured
    exact .inl ⟨measured.1, measured.2, if_pos h⟩
  · refine .inr ⟨fun measured => h ?_, if_neg h⟩
    rwa [Bool.and_eq_true, Bool.or_eq_true, decide_eq_true_eq, decide_eq_true_eq, decide_eq_true_eq]

theorem move_sees (r : LeafRun) (st : LeafState) : r.leaf.SeesAs (r.move st).leaf ∧ (r.move st).leaf.state = st ∧
    (r.move st).entered = r.entered ++ [st] := by
  obtain ⟨sees, state⟩ := enter_sees r.leaf true st
  rcases move_cases r st with ⟨-, -, e⟩ | ⟨-, e⟩ <;> rw [e]
  · exact ⟨⟨sees.cfg, sees.counted, sees.readings⟩, state, rfl⟩
  · exact ⟨sees, state, rfl⟩

section
variable {l m : Leaf}

theorem Leaf.SeesAs.refl (l : Leaf) : l.SeesAs l := ⟨rfl, rfl, rfl⟩

theorem Leaf.SeesAs.trans {n : Leaf} (h : l.SeesAs m) (k : m.SeesAs n) : l.SeesAs n :=
  ⟨k.cfg.trans h.cfg, k.counted.trans h.counted, k.readings.trans h.readings⟩

/-- What is read off inputs and readings alone. -/
theorem Leaf.SeesAs.tables (h : l.SeesAs m) : m.input = l.input ∧ m.hasLock = l.hasLock ∧ m.hasOpenEnd = l.hasOpenEnd ∧
    m.firstLine = l.firstLine ∧ m.next = l.next ∧ m.chain = l.chain ∧ m.entryTest = l.entryTest ∧ m.counts = l.counts := by
  have chain (a b : Leaf) (next : a.next = b.next) : a.chain = b.chain := by
    funext n st
    induction n generalizing st with
    | zero => rfl
    | succ n ih =>
      simp only [Leaf.chain, next]
      cases b.next st with
      | none => rfl
      | some e => exact congrArg _ (ih e)
  have entryTest (a b : Leaf) (next : a.next = b.next) : a.entryTest = b.entryTest := by
    have same (st : LeafState) : a.firstLine (fun slot r => decide (a.readings[slot] = r)) st =
        b.firstLine (fun slot r => decide (b.readings[slot] = r)) st := congrFun next st
    funext st es
    induction es generalizing st with
    | nil => simp only [Leaf.entryTest, same]
    | cons e es ih => simp only [Leaf.entryTest, same, ih]
  have input : m.input = l.input := by
    funext slot
    simp only [Leaf.input, h.cfg, h.counted]
  have hasLock : m.hasLock = l.hasLock := by rw [Leaf.hasLock, input]; rfl
  have hasOpenEnd : m.hasOpenEnd = l.hasOpenEnd := by rw [Leaf.hasOpenEnd, input]; rfl
  have firstLine : m.firstLine = l.firstLine := by
    funext now st
    have lines : m.lines now st = l.lines now st := by
      cases st <;> simp only [Leaf.lines, Leaf.shut, hasLock, hasOpenEnd, h.readings]
    rw [Leaf.firstLine, lines]
    rfl
  have next : m.next = l.next := by
    funext st
    simp only [Leaf.next, firstLine, h.readings]
  refine ⟨input, hasLock, hasOpenEnd, firstLine, next, chain m l next, entryTest m l next, ?_⟩
  funext c st
  cases st <;> simp only [Leaf.counts, hasLock]

end

/-- The entry test repeated moves the leaf through its chain. -/
theorem settle_moves (n : Nat) (r : LeafRun) : r.settle n = r.moves (r.leaf.chain n r.leaf.state) := by
  induction n generalizing r with
  | zero => rfl
  | succ n ih =>
    unfold LeafRun.settle Leaf.chain
    rw [line_all]
    cases r.leaf.next r.leaf.state with
    | none => rfl
    | some e =>
      obtain ⟨sees, state, -⟩ := move_sees r e
      dsimp only
      rw [ih, state, sees.tables.2.2.2.2.2.1]
      rfl

/-- One evaluation moves the leaf through the states it enters. -/
theorem evaluate_moves (r : LeafRun) (changed : Fin 5 → Bool) : r.evaluate changed = r.moves (r.leaf.entries changed) := by
  have enters {st : LeafState} (other : r.leaf.state ≠ .closing ∨ (st ≠ .closed ∧ st ≠ .locked)) :
      r.enter st = r.moves [st] := by
    rcases move_cases r st with ⟨closing, shut, -⟩ | ⟨-, e⟩
    · rcases other with other | other
      · exact absurd closing other
      · exact absurd shut fun h => h.elim other.1 other.2
    · exact e.symm
  unfold LeafRun.evaluate Leaf.entries
  dsimp only
  split
  · split
    · rfl
    · exact enters (.inr ⟨nofun, nofun⟩)
  · split
    · split
      · rfl
      · exact enters (.inr ⟨nofun, nofun⟩)
    · split
      next still => exact enters (.inl (by rcases still with e | e <;> rw [e] <;> nofun))
      next =>
        cases r.leaf.line changed with
        | none => rfl
        | some st =>
          obtain ⟨sees, state, -⟩ := move_sees r st
          show (r.move st).settle 3 = _
          rw [settle_moves, state, sees.tables.2.2.2.2.2.1]
          rfl

/-- The states entered are those the rules name. -/
theorem entries_enter {a b : Leaf} (sees : Leaf.SeesAs { a with readings := b.readings } b) :
    a.enters b (({ a with readings := b.readings } : Leaf).entries fun slot => decide (b.readings[slot] ≠ a.readings[slot])) := by
  set l : Leaf := { a with readings := b.readings } with l_eq
  obtain ⟨unseen, onRelease, standing⟩ := sees.view
  obtain ⟨-, -, -, firstLine, -, -, entryTest, -⟩ := sees.tables
  have blind := blind_iff l
  have pulled := pulled_iff l
  rw [← unseen] at blind
  rw [← onRelease] at pulled
  unfold Leaf.entries
  refine ⟨fun h => ?_, fun h k => ?_, fun h k still => ?_, fun h k notUnknown notReleased => ?_⟩
  · rw [if_pos (blind.2 h)]
  · rw [if_neg (mt blind.1 h), if_pos (pulled.2 k)]
  · rw [if_neg (mt blind.1 h), if_neg (mt pulled.1 k), if_pos still, rederived_eq_standing, standing]
  · have line : l.line (fun slot => decide (b.readings[slot] ≠ a.readings[slot])) =
        b.firstLine (fun slot r => decide (b.readings[slot] = r ∧ a.readings[slot] ≠ r)) a.state := by
      rw [line_eq_firstLine, firstLine]
      refine congrArg (fun now => l.firstLine now a.state) ?_
      funext slot r
      show (decide (b.readings[slot] ≠ a.readings[slot]) && decide (b.readings[slot] = r)) = _
      rw [← Bool.decide_and]
      refine decide_eq_decide.2 ⟨fun ⟨ne, now⟩ => ⟨now, fun old => ne (now.trans old.symm)⟩, fun ⟨now, ne⟩ =>
        ⟨fun same => ne (same.symm.trans now), now⟩⟩
    rw [if_neg (mt blind.1 h), if_neg (mt pulled.1 k),
      if_neg (show ¬ (l.state = .unknown ∨ l.state = .released) from fun h => h.elim notUnknown notReleased), line]
    cases b.firstLine (fun slot r => decide (b.readings[slot] = r ∧ a.readings[slot] ≠ r)) a.state with
    | none => rfl
    | some e => exact ⟨l.chain 3 e, rfl, by rw [entryTest]; exact chain_tests l e⟩

end Sys2Proof.Machine
end

section
/-! PROOFS. What the states entered do to a leaf and its statistics (R131 to R133). -/

namespace Sys2Proof.Machine

set_option Elab.async false

/-! ## One state entered -/

section
variable (l : Leaf) (st : LeafState)

theorem enter_timers {c : LeafCfg} (cfg : l.cfg = some c) :
    (l.enter true st).travelT = (if st = .opening ∧ l.hasOpenEnd = false then some (100 * c.travel) else none) ∧
    (l.enter true st).lockT = (if st = .closed ∧ l.hasLock = true then some (100 * c.lockTo) else none) ∧
    (l.enter true st).closingT = (if st = .closing then some 0 else none) := by
  have timed : l.timersFor st = { l with
      travelT := if st = .opening ∧ !l.hasOpenEnd then some (c.travel * 100) else none
      lockT := if st = .closed ∧ l.hasLock then some (c.lockTo * 100) else none
      closingT := if st = .closing then some 0 else none } := by
    rw [Leaf.timersFor, cfg]
  have entered : l.enter true st = { l.timersFor st with
      state := st, cycleMark := l.markFor st, lockFault := l.lockFault && decide (st ≠ .locked) } := by
    unfold Leaf.enter
    rw [if_pos rfl]
  rw [entered, timed, Nat.mul_comm c.travel, Nat.mul_comm c.lockTo]
  simp only [Bool.not_eq_true', and_self]

theorem enter_marks : (l.enter true st).cycleMark = l.markFor st ∧
    (l.enter true st).lockFault = (l.lockFault && decide (st ≠ .locked)) ∧ (l.enter true st).slow = l.slow := by
  unfold Leaf.enter
  rw [if_pos rfl]
  unfold Leaf.timersFor
  split <;> exact ⟨rfl, rfl, rfl⟩

/-- A cycle is counted where the leaf becomes secure with the mark set, an obstruction at OBSTRUCTED. -/
theorem count_eq (d : DoorStats) : d.count l st = { d with
    cycles := (l.counts (l.cycleMark, d.cycles) st).2
    obstructions := if st = .obstructed then min 65535 (d.obstructions + 1) else d.obstructions } := by
  cases st <;> cases mark : l.cycleMark <;> cases lock : l.hasLock <;>
    simp [DoorStats.count, Leaf.counts, secureState, mark, lock]

theorem markFor_eq (n : Nat) : l.markFor st = (l.counts (l.cycleMark, n) st).1 := by
  cases st <;> cases lock : l.hasLock <;> simp [Leaf.markFor, Leaf.counts, secureState, lock]

end

/-- One transition: the counts of R132 and the lock fault. -/
theorem move_counts (r : LeafRun) (st : LeafState) :
    ((r.move st).leaf.cycleMark, (r.move st).stats.cycles) = r.leaf.counts (r.leaf.cycleMark, r.stats.cycles) st ∧
    (r.move st).stats.obstructions =
      (if st = .obstructed then min 65535 (r.stats.obstructions + 1) else r.stats.obstructions) ∧
    (r.move st).leaf.lockFault = (r.leaf.lockFault && decide (st ≠ .locked)) := by
  obtain ⟨mark, fault, -⟩ := enter_marks r.leaf st
  have counted := count_eq r.leaf st r.stats
  have cycles : (r.enter st).stats.cycles = (r.leaf.counts (r.leaf.cycleMark, r.stats.cycles) st).2 := by
    show (r.stats.count r.leaf st).cycles = _
    rw [counted]
  have obstructions : (r.enter st).stats.obstructions =
      if st = .obstructed then min 65535 (r.stats.obstructions + 1) else r.stats.obstructions := by
    show (r.stats.count r.leaf st).obstructions = _
    rw [counted]
  have marked : (r.enter st).leaf.cycleMark = (r.leaf.counts (r.leaf.cycleMark, r.stats.cycles) st).1 :=
    mark.trans (markFor_eq _ _ _)
  rcases move_cases r st with ⟨-, -, e⟩ | ⟨-, e⟩ <;> rw [e] <;>
    exact ⟨Prod.ext marked cycles, obstructions, fault⟩

theorem move_timers (r : LeafRun) (st : LeafState) {c : LeafCfg} (cfg : r.leaf.cfg = some c) :
    (r.move st).leaf.travelT = (if st = .opening ∧ r.leaf.hasOpenEnd = false then some (100 * c.travel) else none) ∧
    (r.move st).leaf.lockT = (if st = .closed ∧ r.leaf.hasLock = true then some (100 * c.lockTo) else none) ∧
    (r.move st).leaf.closingT = (if st = .closing then some 0 else none) := by
  have timers := enter_timers r.leaf st cfg
  rcases move_cases r st with ⟨-, -, e⟩ | ⟨-, e⟩ <;> rw [e] <;> exact timers

/-- A transition that is not measured leaves the closing times alone. -/
theorem move_unmeasured {r : LeafRun} {st : LeafState} (h : ¬ (r.leaf.state = .closing ∧ (st = .closed ∨ st = .locked))) :
    (r.move st).leaf.slow = r.leaf.slow ∧ (r.move st).stats.slow = r.stats.slow ∧ (r.move st).stats.mean = r.stats.mean := by
  rcases move_cases r st with ⟨closing, shut, -⟩ | ⟨-, e⟩
  · exact absurd ⟨closing, shut⟩ h
  · rw [e]
    refine ⟨(enter_marks r.leaf st).2.2, ?_, ?_⟩
    · show (r.stats.count r.leaf st).slow = _
      rw [count_eq]
    · show (r.stats.count r.leaf st).mean = _
      rw [count_eq]

/-- A measured closing (R133). -/
theorem move_measured {r : LeafRun} {st : LeafState} {c : LeafCfg} (cfg : r.leaf.cfg = some c)
    (closing : r.leaf.state = .closing) (shut : st = .closed ∨ st = .locked) :
    let m := min 65535 (r.leaf.closingT.getD 0 / 10)
    let slow := 10 * c.closing < m
    (r.move st).leaf.slow = decide slow ∧
      (r.move st).stats.slow = (if slow then min 65535 (r.stats.slow + 1) else r.stats.slow) ∧
      (r.move st).stats.mean = some (match r.stats.mean with
        | some v => ((v : Int) + ((m : Int) - v).tdiv 8).toNat
        | none => m) := by
  intro m slow
  rcases move_cases r st with ⟨-, -, e⟩ | ⟨not, -⟩
  · have sees := (enter_sees r.leaf true st).1
    have cfg' : (r.enter st).leaf.cfg = some c := sees.cfg.trans cfg
    have counted := count_eq r.leaf st r.stats
    have mean : (r.enter st).stats.mean = r.stats.mean := by
      show (r.stats.count r.leaf st).mean = _
      rw [counted]
    have count : (r.enter st).stats.slow = r.stats.slow := by
      show (r.stats.count r.leaf st).slow = _
      rw [counted]
    rw [e]
    unfold LeafRun.measure
    simp only [cfg', mean, count, decide_eq_true_eq]
    exact ⟨rfl, rfl, rfl⟩
  · exact absurd ⟨closing, shut⟩ not

/-! ## All the states entered -/

section
variable (r : LeafRun) (es : List LeafState)

theorem moves_cons (e : LeafState) : r.moves (e :: es) = (r.move e).moves es := rfl

theorem moves_sees : r.leaf.SeesAs (r.moves es).leaf ∧ (r.moves es).leaf.state = (es.getLast?).getD r.leaf.state ∧
    (r.moves es).entered = r.entered ++ es := by
  induction es generalizing r with
  | nil => exact ⟨.refl _, rfl, (List.append_nil _).symm⟩
  | cons e es ih =>
    obtain ⟨sees, state, entered⟩ := move_sees r e
    obtain ⟨sees', state', entered'⟩ := ih (r.move e)
    rw [moves_cons]
    refine ⟨sees.trans sees', ?_, by rw [entered', entered, List.append_assoc]; rfl⟩
    rw [state', state]
    cases es with
    | nil => rfl
    | cons x xs =>
      obtain ⟨y, hy⟩ := Option.isSome_iff_exists.1 (List.getLast?_isSome.2 (List.cons_ne_nil x xs))
      rw [List.getLast?_cons_cons, hy]
      rfl

theorem moves_counts :
    ((r.moves es).leaf.cycleMark, (r.moves es).stats.cycles) = es.foldl r.leaf.counts (r.leaf.cycleMark, r.stats.cycles) ∧
    (r.moves es).stats.obstructions = (if .obstructed ∈ es then min 65535 (r.stats.obstructions + es.count .obstructed)
      else r.stats.obstructions) ∧
    (r.moves es).leaf.lockFault = (r.leaf.lockFault && decide (.locked ∉ es)) := by
  induction es generalizing r with
  | nil => exact ⟨rfl, rfl, (Bool.and_true _).symm⟩
  | cons e es ih =>
    obtain ⟨counts, obstructions, fault⟩ := move_counts r e
    obtain ⟨counts', obstructions', fault'⟩ := ih (r.move e)
    have table := (move_sees r e).1.tables.2.2.2.2.2.2.2
    rw [moves_cons]
    refine ⟨by rw [counts', table, counts]; rfl, ?_, ?_⟩
    · rw [obstructions', obstructions]
      by_cases now : e = .obstructed
      · subst now
        have count : (LeafState.obstructed :: es).count .obstructed = es.count .obstructed + 1 := List.count_cons_self
        rw [if_pos rfl, if_pos (List.mem_cons_self), count]
        by_cases again : LeafState.obstructed ∈ es
        · rw [if_pos again]
          omega
        · rw [if_neg again, List.count_eq_zero.2 again]
      · have count : (e :: es).count .obstructed = es.count .obstructed := List.count_cons_of_ne now
        rw [if_neg now, count]
        refine if_congr ?_ rfl rfl
        rw [List.mem_cons]
        exact ⟨.inr, fun h => h.resolve_left fun same => now same.symm⟩
    · rw [fault', fault, Bool.and_assoc, ← Bool.decide_and]
      refine congrArg _ (decide_eq_decide.2 ?_)
      rw [List.mem_cons, not_or]
      exact and_congr_left fun _ => ne_comm

/-- The timers are those of the last state entered (R131). -/
theorem moves_timers {c : LeafCfg} (cfg : r.leaf.cfg = some c) (moved : es ≠ []) :
    let b := (r.moves es).leaf
    b.travelT = (if b.state = .opening ∧ b.hasOpenEnd = false then some (100 * c.travel) else none) ∧
    b.lockT = (if b.state = .closed ∧ b.hasLock = true then some (100 * c.lockTo) else none) ∧
    b.closingT = (if b.state = .closing then some 0 else none) := by
  obtain ⟨init, last, rfl⟩ := (List.eq_nil_or_concat es).resolve_left moved
  have final : r.moves (init ++ [last]) = (r.moves init).move last := List.foldl_concat ..
  obtain ⟨sees, -, -⟩ := moves_sees r init
  obtain ⟨sees', state, -⟩ := move_sees (r.moves init) last
  have timers := move_timers (r.moves init) last (sees.cfg.trans cfg)
  rw [List.concat_eq_append, final]
  dsimp only
  rw [state, sees'.tables.2.1, sees'.tables.2.2.1]
  exact timers

theorem moves_unmeasured (ajar : r.leaf.state ≠ .closing) (never : .closing ∉ es) :
    (r.moves es).leaf.slow = r.leaf.slow ∧ (r.moves es).stats.slow = r.stats.slow ∧
      (r.moves es).stats.mean = r.stats.mean := by
  induction es generalizing r with
  | nil => exact ⟨rfl, rfl, rfl⟩
  | cons e es ih =>
    obtain ⟨slow, count, mean⟩ := move_unmeasured (st := e) fun h => ajar h.1
    obtain ⟨other, never⟩ : e ≠ .closing ∧ .closing ∉ es :=
      ⟨fun same => never (same ▸ List.mem_cons_self), fun mem => never (List.mem_cons_of_mem _ mem)⟩
    obtain ⟨slow', count', mean'⟩ := ih (r.move e) (by rwa [(move_sees r e).2.1]) never
    exact ⟨slow'.trans slow, count'.trans count, mean'.trans mean⟩

end

/-- A leaf that leaves CLOSING by the closed switch rests there. -/
theorem entries_closing {l : Leaf} {changed : Fin 5 → Bool} {e : LeafState} {rest : List LeafState}
    (closing : l.state = .closing) (es : l.entries changed = e :: rest) (shut : e = .closed ∨ e = .locked) : rest = [] := by
  unfold Leaf.entries at es
  rw [closing] at es
  split at es
  · obtain ⟨rfl, -⟩ := List.cons.inj es
    exact absurd shut (by decide)
  · split at es
    · obtain ⟨rfl, -⟩ := List.cons.inj es
      exact absurd shut (by decide)
    · rw [if_neg (by decide)] at es
      have line : l.line changed = if changed slotClosed && decide (l.readings[slotClosed] = .active) then some l.perInputs
          else if changed slotEdge && decide (l.readings[slotEdge] = .active) then some .obstructed
          else if changed slotOpenEnd && decide (l.readings[slotOpenEnd] = .active) then some .opened else none := by
        unfold Leaf.line
        rw [closing]
      rw [line] at es
      split at es
      next st found =>
        obtain ⟨rfl, rfl⟩ := List.cons.inj es
        split at found
        next closed =>
          obtain rfl := Option.some.inj found
          rw [Bool.and_eq_true, decide_eq_true_eq] at closed
          rw [← shut_eq_perInputs, Leaf.chain, next_shut l closed.2]
        next =>
          split at found
          · obtain rfl := Option.some.inj found
            exact absurd shut (by decide)
          · split at found
            · obtain rfl := Option.some.inj found
              exact absurd shut (by decide)
            · exact absurd found nofun
      · exact absurd es nofun

/-- The closing times after one evaluation (R133). -/
theorem moves_closing {r : LeafRun} {changed : Fin 5 → Bool} {c : LeafCfg} (cfg : r.leaf.cfg = some c) :
    let es := r.leaf.entries changed
    let m := min 65535 (r.leaf.closingT.getD 0 / 10)
    let slow := 10 * c.closing < m
    let measured := r.leaf.state = .closing ∧ (es = [.closed] ∨ es = [.locked])
    (measured → (r.moves es).leaf.slow = decide slow ∧
        (r.moves es).stats.slow = (if slow then min 65535 (r.stats.slow + 1) else r.stats.slow) ∧
        (r.moves es).stats.mean = some (match r.stats.mean with
          | some v => ((v : Int) + ((m : Int) - v).tdiv 8).toNat
          | none => m)) ∧
      (¬ measured → .closing ∉ es → (r.moves es).leaf.slow = r.leaf.slow ∧ (r.moves es).stats.slow = r.stats.slow ∧
        (r.moves es).stats.mean = r.stats.mean) := by
  intro es m slow measured
  refine ⟨fun ⟨closing, shut⟩ => ?_, fun not never => ?_⟩
  · rcases shut with one | one <;> rw [one]
    · exact move_measured cfg closing (.inl rfl)
    · exact move_measured cfg closing (.inr rfl)
  · cases hes : es with
    | nil => exact ⟨rfl, rfl, rfl⟩
    | cons e rest =>
      rw [hes] at never
      have other : ¬ (r.leaf.state = .closing ∧ (e = .closed ∨ e = .locked)) := fun ⟨closing, shut⟩ => by
        have one := entries_closing closing hes shut
        refine not ⟨closing, ?_⟩
        rw [hes, one]
        exact shut.imp (fun h => by rw [h]) fun h => by rw [h]
      obtain ⟨slow, count, mean⟩ := move_unmeasured other
      obtain ⟨slow', count', mean'⟩ := moves_unmeasured (r.move e) rest
        (by rw [(move_sees r e).2.1]; exact fun same => never (same ▸ List.mem_cons_self))
        fun mem => never (List.mem_cons_of_mem _ mem)
      exact ⟨slow'.trans slow, count'.trans count, mean'.trans mean⟩

end Sys2Proof.Machine
end

section
/-! PROOFS. What each part of a hand-over does at the Fault Memory (R109, R137, R148): the sources it touches, and the presences the CI
hands. -/

namespace Sys2Proof.Machine

set_option Elab.async false

/-! ## Sources touched -/

/-- A source of the Warning Manager. -/
def warningSource : FaultSource → Prop
  | .warning _ => True
  | _ => False

/-- A source of a leaf. -/
def doorSource (i : Fin 8) : FaultSource → Prop
  | .doorLock j | .doorSlow j | .doorInput j | .doorParked j => j = i
  | _ => False

section
variable {s : State}

theorem enterActive_grows (w : Fin 64) (s : State) : FaultsGrow warningSource s (enterActive w s) := by
  have list : Only [.reports, .wm, .ao] s (takeList (setWarnState w .active (activate w s))) :=
    ((activate_only s w).mono.andThen (setWarnState_only _ _ _)).andThen (takeList_only _)
  refine inFreeOrder_induct (FaultsGrow warningSource s) (.ofFm list.fm) fun u hu t h => h.trans ?_
  simp only [List.mem_cons, Prod.mk.injEq, List.not_mem_nil, or_false] at hu
  rcases hu with ⟨-, rfl⟩ | ⟨-, rfl⟩
  · exact (setPresence_grows _ _ t).mono fun _ e => e ▸ trivial
  · exact .ofFm (stopActivation_only t).fm

theorem leaveActive_grows (w : Fin 64) (st : WarnState) (s : State) : FaultsGrow warningSource s (leaveActive w st s) := by
  have list : Only [.reports, .wm, .ao] s
      (handList w st (setWarnState w st (s.modInst w fun i => { i with delayT := none, alertT := none }))) :=
    ((modInst_only s _ _).mono.andThen (setWarnState_only _ _ _)).andThen (handList_only _ _ _)
  refine FaultsGrow.trans (.ofFm list.fm) ?_
  unfold leaveActive handAbsence
  dsimp only
  split
  · exact (setPresence_grows _ _ _).mono fun _ e => e ▸ trivial
  · exact .refl _ _

theorem actOn_grows (w : Fin 64) (d : WarnDef) (q : Bool) (s : State) : FaultsGrow warningSource s (actOn w d q s) := by
  unfold actOn
  split
  · unfold startWarning
    split
    · exact enterActive_grows w s
    · exact .ofFm rfl
  · exact .ofFm rfl
  · exact leaveActive_grows w _ s
  · exact leaveActive_grows w .inactive s
  · exact enterActive_grows w s
  · exact .refl _ s

theorem evaluate_grows (reads : Condition → Bool) (motion : Bool) (s : State) :
    FaultsGrow warningSource s (evaluate reads motion s) := by
  unfold evaluate
  split
  · exact .refl _ s
  · split
    · refine forEach_induct (FaultsGrow warningSource s) _ _ (.ofFm rfl) fun w t h => h.trans ?_
      unfold askWarning
      split
      · split
        · exact actOn_grows w _ _ t
        · exact .refl _ t
      · exact .refl _ t
    · exact .refl _ s

theorem handed_grows (reads : Condition → Bool) (motion : Bool) (f : View → View) (s : State) :
    FaultsGrow warningSource s (evaluate reads motion (changeView f s)) :=
  FaultsGrow.trans (.ofFm (changeView_only s f).fm) (evaluate_grows reads motion _)

theorem handDisplay_grows (g : Fin 8) (s : State) : FaultsGrow warningSource s (handDisplay g s) :=
  handed_grows (·.readsGauge g) false _ s

theorem handDoorCond_grows (l : Fin 8) (c : DoorCond) (s : State) : FaultsGrow warningSource s (handDoorCond l c s) :=
  handed_grows (·.readsLeaf l) false _ s

theorem handConds_grows (i : Fin 8) (s : State) : FaultsGrow warningSource s (handConds i s) := by
  set t := s.modDm fun d => { d with conds := vset d.conds i (some s.dm.leaves[i].conds) } with t_eq
  have stored : FaultsGrow warningSource s t := .ofFm rfl
  exact stored.trans (handDoorCond_grows i s.dm.leaves[i].conds t)

theorem handMotionToWm_grows (s : State) : FaultsGrow warningSource s (handMotionToWm s) :=
  handed_grows (fun c => decide (c = .motionUnknown)) true _ s

theorem deriveGauge_grows (g : Fin 8) (s : State) : FaultsGrow warningSource s (deriveGauge g s) := by
  rcases deriveGauge_cases g s with ⟨-, e⟩ | ⟨r, -, -, e⟩
  · rw [e]
    exact .refl _ s
  · rw [e]
    split
    · refine FaultsGrow.trans (.ofFm ?_) (handDisplay_grows g _)
      split <;> rfl
    · refine .ofFm ?_
      split <;> rfl

theorem handMotion_grows (s : State) : FaultsGrow warningSource s (handMotion s) := by
  refine inFreeOrder_induct (FaultsGrow warningSource s) (.ofFm rfl) fun u hu t h => h.trans ?_
  simp only [List.mem_cons, Prod.mk.injEq, List.not_mem_nil, or_false] at hu
  rcases hu with ⟨-, rfl⟩ | ⟨-, rfl⟩
  · exact handMotionToWm_grows t
  · unfold sessionTakesMotion
    split
    · exact .refl _ t
    · exact .ofFm (endSession_only t _).fm

/-- What an evaluation of a leaf touches. -/
def leafTouches (i : Fin 8) : FaultSource → Prop := fun src => warningSource src ∨ doorSource i src

theorem concludeLeaf_grows (i : Fin 8) (r : LeafRun) (s : State) : FaultsGrow (leafTouches i) s (concludeLeaf i r s) := by
  rw [concludeLeaf_eq]
  refine inFreeOrder_induct (FaultsGrow (leafTouches i) s) (.ofFm (leafConcluded_only i r s).fm) fun u hu t h => h.trans ?_
  simp only [List.mem_cons, Prod.mk.injEq, List.not_mem_nil, or_false] at hu
  rcases hu with ⟨-, rfl⟩ | ⟨-, rfl⟩ | ⟨-, rfl⟩ | ⟨-, rfl⟩ | ⟨-, rfl⟩
  · exact (handConds_grows i t).mono fun _ => .inl
  · exact (setPresence_grows _ _ t).mono fun _ e => .inr (e ▸ rfl)
  · exact (fireSource_grows _ t).mono fun _ e => .inr (e ▸ rfl)
  · exact (setPresence_grows _ _ t).mono fun _ e => .inr (e ▸ rfl)
  · exact .ofFm (queueDoorStats_only t).fm

end

/-- The sources a part touches. -/
def HandOver.touches (o : HandOver) : HandPart → FaultSource → Prop
  | .gauge _ | .warnings | .motion => warningSource
  | .leaf i => leafTouches i
  | .faults => fun src => ∃ p, (src, p) ∈ o.faults

theorem handPart_grows (o : HandOver) (p : HandPart) (t : State) : FaultsGrow (o.touches p) t (o.run p t) := by
  cases p with
  | gauge g =>
    show FaultsGrow warningSource t (if _ then deriveGauge g t else t)
    split
    · exact deriveGauge_grows g t
    · exact .refl _ t
  | leaf i =>
    show FaultsGrow (leafTouches i) t (if _ then (if _ then evaluateLeaf _ i t else if _ then recordReadings _ i t else t) else t)
    split
    · split
      · exact concludeLeaf_grows i _ t
      · split
        · exact .ofFm (recordReadings_only t _ i).fm
        · exact .refl _ t
    · exact .refl _ t
  | warnings => exact evaluate_grows (fun c => o.chs.any c.readsChannel) false t
  | faults => exact handPresences_grows _ t _ fun p hp => ⟨p.2, hp⟩
  | motion => exact handMotion_grows t

/-! ## The presences handed -/

/-- Presences of channels and of the system, each source with one value. -/
structure HandsPresences (faults : List (FaultSource × Bool)) : Prop where
  source : ∀ src p, (src, p) ∈ faults → ¬ warningSource src ∧ ∀ i, ¬ doorSource i src
  one    : ∀ src p q, (src, p) ∈ faults → (src, q) ∈ faults → p = q

theorem handPresences_present {faults : List (FaultSource × Bool)} {src : FaultSource} {p : Bool}
    (one : ∀ q, (src, q) ∈ faults → q = p) (mem : (src, p) ∈ faults ∨ s.fm.present src = p) :
    (handPresences faults s).fm.present src = p := by
  induction faults generalizing s with
  | nil => exact mem.resolve_left nofun
  | cons x xs ih =>
    refine ih (fun q hq => one q (List.mem_cons_of_mem _ hq)) ?_
    by_cases here : x.1 = src
    · refine .inr ?_
      have value : x.2 = p := one x.2 (by rw [← here]; exact List.mem_cons_self)
      show (setPresence x.1 x.2 s).fm.present src = p
      rw [here, value]
      exact setPresence_present src p s
    · rcases mem with mem | held
      · exact .inl ((List.mem_cons.1 mem).resolve_left fun e => here (by rw [← e]))
      · exact .inr (((setPresence_grows x.1 x.2 s).present src (Ne.symm here)).trans held)

/-- A presence handed stands after the hand-over. -/
theorem handed_presence {u : State} {before : Interp} {all moved : Bool} {faults : List (FaultSource × Bool)}
    (hands : HandsPresences faults) {src : FaultSource} {p : Bool} (mem : (src, p) ∈ faults) :
    (u.handed before all moved faults).fm.present src = p := by
  have view : (viewChannels (changedChannels before u.ci) u).fm = u.fm := (viewChannels_only u _).fm
  obtain ⟨notWarning, notDoor⟩ := hands.source src p mem
  rw [handed_eq]
  refine handOver_at (fun t => t.fm.present src = u.fm.present src) (fun t => t.fm.present src = p) .faults
    (congrArg (fun f : FaultMem => f.present src) view) (fun q ne t => ?_)
    (fun _ t _ => handPresences_present (fun q hq => hands.one src q p hq mem) (.inl mem)) fun idle t held => ?_
  · have off : ¬ (u.handOver before all faults).touches q src := by
      cases q with
      | gauge _ => exact notWarning
      | leaf i => exact fun on => on.elim notWarning (notDoor i)
      | warnings => exact notWarning
      | faults => exact absurd rfl ne
      | motion => exact notWarning
    rw [(handPart_grows _ q t).present src off]
    exact ⟨id, id⟩
  · rw [held]
    have same := List.any_eq_false.1 idle (src, p) mem
    simpa using same

end Sys2Proof.Machine
end

section
/-! PROOFS. One leaf evaluated and concluded (R128, R134 to R138), and what that leaves of the other leaves. -/

namespace Sys2Proof.Machine

set_option Elab.async false

/-! ## The evaluation concluded -/

/-- The Door Monitor after one evaluation of leaf `i`: the leaf and its statistics, its doorway and DOORS_CLEAR where a state was
entered. -/
structure State.StoresLeaf (t : State) (i : Fin 8) (r : LeafRun) (u : State) : Prop where
  leaves  : u.dm.leaves = vset t.dm.leaves i (r.result t)
  stats   : u.dm.stats = vset t.dm.stats i r.stats
  doorway : ∀ w : Fin 4, u.dm.doorway[w] =
    if r.entered ≠ [] ∧ (r.result t).doorway = some w then u.dm.worst w else t.dm.doorway[w]
  clear   : u.dm.doorsClear = if r.entered = [] then t.dm.doorsClear else decide t.inRun && u.dm.allSecure
  conds   : ∀ j, j ≠ i → u.dm.conds[j] = t.dm.conds[j]

section
variable {i : Fin 8} {r : LeafRun} {t u v : State}

theorem State.StoresLeaf.congr (h : t.StoresLeaf i r u) (same : v.dm = { u.dm with conds := v.dm.conds })
    (conds : ∀ j, j ≠ i → v.dm.conds[j] = u.dm.conds[j]) : t.StoresLeaf i r v := by
  obtain ⟨leaves, stats, doorway, clear, others⟩ := h
  have leavesV : v.dm.leaves = u.dm.leaves := by rw [same]
  have worst (w : Fin 4) : v.dm.worst w = u.dm.worst w := by rw [same]; rfl
  have secure : v.dm.allSecure = u.dm.allSecure := by rw [same]; rfl
  refine ⟨leavesV.trans leaves, by rw [same]; exact stats, fun w => ?_, ?_, fun j ne => (conds j ne).trans (others j ne)⟩
  · rw [worst, ← doorway w, same]
  · rw [secure, ← clear, same]

theorem leafConcluded_stores (i : Fin 8) (r : LeafRun) (t : State) : t.StoresLeaf i r (t.leafConcluded i r) := by
  set x := (t.leafStored i r).leafReported i r with x_eq
  have reported : x.dm = (t.leafStored i r).dm := (leafReported_only i r _).dm
  have run : x.sc = t.sc := (leafReported_only i r _).sc
  by_cases none : r.entered = []
  · have e : t.leafConcluded i r = x := if_pos none
    rw [e]
    refine ⟨by rw [reported]; rfl, by rw [reported]; rfl, fun w => ?_, ?_, fun j _ => by rw [reported]; rfl⟩
    · rw [if_neg fun h => h.1 none, reported]
      rfl
    · rw [if_pos none, reported]
      rfl
  · have e : t.leafConcluded i r = deriveDoorsClear (deriveDoorwayOf (r.result t) x) := if_neg none
    set y := deriveDoorwayOf (r.result t) x with y_eq
    obtain ⟨frame, doorway⟩ := deriveDoorwayOf_doorway (r.result t) x
    rw [← y_eq] at frame doorway
    have clear : (deriveDoorsClear y).dm = { y.dm with doorsClear := decide y.inRun && y.dm.allSecure } :=
      setDoorsClear_dm _ _
    have runY : y.sc = t.sc := ((deriveDoorwayOf_only x (r.result t)).sc).trans run
    have worstX (w : Fin 4) : y.dm.worst w = x.dm.worst w := by rw [frame]; rfl
    rw [e]
    refine ⟨?_, ?_, fun w => ?_, ?_, fun j _ => ?_⟩
    · rw [clear, frame, reported]
      rfl
    · rw [clear, frame, reported]
      rfl
    · rw [clear]
      show y.dm.doorway[w] = if _ then y.dm.worst w else _
      rw [doorway w, worstX, reported]
      exact if_congr (and_iff_right none).symm rfl rfl
    · rw [if_neg none, clear]
      show (decide y.inRun && y.dm.allSecure) = (decide t.inRun && y.dm.allSecure)
      unfold State.inRun
      rw [runY]
    · rw [clear, frame, reported]
      rfl

theorem handConds_dm (i : Fin 8) (t : State) :
    (handConds i t).dm = { t.dm with conds := vset t.dm.conds i (some t.dm.leaves[i].conds) } :=
  (handDoorCond_only _ _ _).dm

theorem concludeLeaf_stores (i : Fin 8) (r : LeafRun) (t : State) : t.StoresLeaf i r (concludeLeaf i r t) := by
  have stored := leafConcluded_stores i r t
  rw [concludeLeaf_eq]
  refine inFreeOrder_induct (t.StoresLeaf i r) (stored.congr rfl fun _ _ => rfl) fun u hu v h => ?_
  simp only [List.mem_cons, Prod.mk.injEq, List.not_mem_nil, or_false] at hu
  have still {x : State} (dm : x.dm = v.dm) : t.StoresLeaf i r x := h.congr (by rw [dm]) fun j _ => by rw [dm]
  rcases hu with ⟨-, rfl⟩ | ⟨-, rfl⟩ | ⟨-, rfl⟩ | ⟨-, rfl⟩ | ⟨-, rfl⟩
  · refine h.congr (by rw [handConds_dm]) fun j ne => ?_
    rw [handConds_dm]
    exact vset_ne _ _ (Ne.symm ne)
  · exact still (setPresence_only v _ _).dm
  · exact still (fireSource_only v _).dm
  · exact still (setPresence_only v _ _).dm
  · exact still (queueDoorStats_only v).dm

/-- The presences of R137. -/
theorem concludeLeaf_presences (i : Fin 8) (r : LeafRun) (t : State) :
    ((r.result t).lockFault ≠ t.dm.leaves[i].lockFault →
      (concludeLeaf i r t).fm.present (.doorLock i) = (r.result t).lockFault) ∧
    ((r.result t).inputFault ≠ t.dm.leaves[i].inputFault →
      (concludeLeaf i r t).fm.present (.doorInput i) = (r.result t).inputFault) := by
  have conds (src : FaultSource) (door : ¬ warningSource src) (v : State) :
      (handConds i v).fm.present src = v.fm.present src := (handConds_grows i v).present src door
  have slow (src : FaultSource) (other : src ≠ .doorSlow i) (v : State) :
      (fireSource (.doorSlow i) v).fm.present src = v.fm.present src := (fireSource_grows _ v).present src other
  have stats (v : State) : (queueDoorStats v).fm = v.fm := (queueDoorStats_only v).fm
  rw [concludeLeaf_eq]
  refine ⟨fun changed => ?_, fun changed => ?_⟩
  · refine inFreeOrder_at (fun _ => True) (fun v => v.fm.present (.doorLock i) = (r.result t).lockFault) [_] [_, _, _] trivial
      (fun u hu v => ⟨fun _ => trivial, fun h => ?_⟩) (fun _ v _ => setPresence_present _ _ v)
      (fun same => absurd (of_decide_eq_false same) fun h => h (Ne.symm changed))
    simp only [List.singleton_append, List.mem_cons, Prod.mk.injEq, List.not_mem_nil, or_false] at hu
    rcases hu with ⟨-, rfl⟩ | ⟨-, rfl⟩ | ⟨-, rfl⟩ | ⟨-, rfl⟩
    · rwa [conds _ id]
    · exact (slow (.doorLock i) nofun v).trans h
    · exact ((setPresence_grows (.doorInput i) _ v).present (.doorLock i) nofun).trans h
    · rwa [stats]
  · refine inFreeOrder_at (fun _ => True) (fun v => v.fm.present (.doorInput i) = (r.result t).inputFault) [_, _, _] [_]
      trivial (fun u hu v => ⟨fun _ => trivial, fun h => ?_⟩) (fun _ v _ => setPresence_present _ _ v)
      (fun same => absurd (of_decide_eq_false same) fun h => h (Ne.symm changed))
    simp only [List.cons_append, List.nil_append, List.mem_cons, Prod.mk.injEq, List.not_mem_nil, or_false] at hu
    rcases hu with ⟨-, rfl⟩ | ⟨-, rfl⟩ | ⟨-, rfl⟩ | ⟨-, rfl⟩
    · rwa [conds _ id]
    · exact ((setPresence_grows (.doorLock i) _ v).present (.doorInput i) nofun).trans h
    · exact (slow (.doorInput i) nofun v).trans h
    · rwa [stats]

/-! ## The other leaves -/

/-- The leaf keeps what a doorway and DOORS_CLEAR read of it where no state is entered. -/
structure LeafRun.Of (r : LeafRun) (a : Leaf) : Prop where
  cfg     : r.leaf.cfg = a.cfg
  counted : r.leaf.counted = a.counted
  still   : r.entered = [] → r.leaf.state = a.state

theorem LeafRun.Of.secure {a : Leaf} (h : r.Of a) (none : r.entered = []) (t : State) :
    (r.result t).secure = a.secure := by
  have input : (r.result t).input slotLocked = a.input slotLocked := by
    have cfg : (r.result t).cfg = a.cfg := h.cfg
    have counted : (r.result t).counted = a.counted := h.counted
    simp only [Leaf.input, cfg, counted]
  have state : (r.result t).state = a.state := h.still none
  rw [Leaf.secure, Leaf.secure, state, Leaf.hasLock, Leaf.hasLock, input]

theorem State.StoresLeaf.leaf (h : t.StoresLeaf i r u) : u.dm.leaves[i] = r.result t := by
  rw [h.leaves, vset_self]

theorem State.StoresLeaf.others (h : t.StoresLeaf i r u) {j : Fin 8} (ne : j ≠ i) :
    u.dm.leaves[j] = t.dm.leaves[j] ∧ u.dm.stats[j] = t.dm.stats[j] := by
  rw [h.leaves, h.stats]
  exact ⟨vset_ne _ _ (Ne.symm ne), vset_ne _ _ (Ne.symm ne)⟩

/-- A doorway that stands at its worst state still does. -/
theorem State.StoresLeaf.worst (h : t.StoresLeaf i r u) (of : r.Of t.dm.leaves[i]) {w : Fin 4}
    (before : t.dm.doorway[w] = t.dm.worst w) : u.dm.doorway[w] = u.dm.worst w := by
  rw [h.doorway w]
  split
  · rfl
  next stays =>
    rw [before]
    refine (worst_congr fun j => ?_).symm
    by_cases same : j = i
    · subst same
      rw [h.leaf]
      refine ⟨of.cfg, fun named => of.still ?_⟩
      by_contra moved
      refine stays ⟨moved, ?_⟩
      rw [← named]
      show r.leaf.cfg.map _ = _
      rw [of.cfg]
      rfl
    · rw [(h.others same).1]
      exact ⟨rfl, fun _ => rfl⟩

/-- DOORS_CLEAR that stands as R135 has it still does. -/
theorem State.StoresLeaf.secure (h : t.StoresLeaf i r u) (of : r.Of t.dm.leaves[i])
    (before : t.dm.doorsClear = (decide t.inRun && t.dm.allSecure)) :
    u.dm.doorsClear = (decide t.inRun && u.dm.allSecure) := by
  rw [h.clear]
  split
  next still =>
    rw [before]
    refine congrArg (decide t.inRun && ·) ?_
    unfold DoorMon.allSecure
    refine congrArg (fun p => (List.finRange 8).all p) (funext fun j => ?_)
    by_cases same : j = i
    · subst same
      have cfg : (r.result t).cfg = t.dm.leaves[j].cfg := of.cfg
      rw [h.leaf, cfg, of.secure still]
    · rw [(h.others same).1]
  · rfl

end

end Sys2Proof.Machine
end

section
/-! PROOFS. A hand-over at the leaves (R127 to R137). -/

namespace Sys2Proof.Machine

set_option Elab.async false

/-! ## What a leaf does with what it is handed -/

section
variable {i : Fin 8} {t u : State} {chs : List (Fin 40)}

/-- The evaluation of a leaf that is handed some channels. -/
def State.handedRun (t : State) (chs : List (Fin 40)) (i : Fin 8) : LeafRun :=
  let l : Leaf := { t.dm.leaves[i] with readings := t.leafReadings t.dm.leaves[i] chs }
  (t.leafRun i l).moves (l.entries fun slot => decide (l.readings[slot] ≠ t.dm.leaves[i].readings[slot]))

theorem evaluateLeaf_eq (chs : List (Fin 40)) (i : Fin 8) (t : State) :
    evaluateLeaf chs i t = concludeLeaf i (t.handedRun chs i) t := by
  unfold evaluateLeaf
  dsimp only
  rw [evaluate_moves]
  rfl

/-- A leaf in RUN or SHUTDOWN evaluates where it is named, and rests else. -/
theorem leafTakes_live (o : HandOver) (live : t.live) (i : Fin 8) : o.leafTakes i t =
    if t.dm.leaves[i].names o.chs then concludeLeaf i (t.handedRun o.chs i) t else t := by
  unfold HandOver.leafTakes
  rw [if_pos live, evaluateLeaf_eq]

theorem handedRun_congr (ci : u.ci = t.ci) (leaf : u.dm.leaves[i] = t.dm.leaves[i]) (stats : u.dm.stats[i] = t.dm.stats[i]) :
    u.handedRun chs i = t.handedRun chs i := by
  simp only [State.handedRun, State.leafRun, leaf, stats, leafReadings_congr ci]

theorem result_congr (ci : u.ci = t.ci) (r : LeafRun) : r.result u = r.result t := by
  unfold LeafRun.result
  rw [inputFaultNow_congr ci]

/-- The entries of an evaluation, and the leaf it starts from. -/
theorem handedRun_sees (t : State) (chs : List (Fin 40)) (i : Fin 8) :
    let l : Leaf := { t.dm.leaves[i] with readings := t.leafReadings t.dm.leaves[i] chs }
    l.SeesAs (t.handedRun chs i).leaf ∧
      (t.handedRun chs i).entered = l.entries (fun slot => decide (l.readings[slot] ≠ t.dm.leaves[i].readings[slot])) ∧
      (t.handedRun chs i).leaf.state = ((t.handedRun chs i).entered.getLast?).getD l.state := by
  intro l
  obtain ⟨sees, state, entered⟩ := moves_sees (t.leafRun i l)
    (l.entries fun slot => decide (l.readings[slot] ≠ t.dm.leaves[i].readings[slot]))
  have entered' : (t.handedRun chs i).entered =
      l.entries fun slot => decide (l.readings[slot] ≠ t.dm.leaves[i].readings[slot]) := entered
  exact ⟨sees, entered', by rw [entered']; exact state⟩

theorem handedRun_of (t : State) (chs : List (Fin 40)) (i : Fin 8) : (t.handedRun chs i).Of t.dm.leaves[i] := by
  obtain ⟨sees, -, state⟩ := handedRun_sees t chs i
  exact ⟨sees.cfg, sees.counted, fun none => by rw [state, none]; rfl⟩

end

/-! ## One leaf after a hand-over -/

section
variable {i : Fin 8} {s u t : State} {o : HandOver}

/-- A leaf once it has taken a hand-over that found it as in `u`. -/
structure State.LeafHanded (u : State) (o : HandOver) (i : Fin 8) (t : State) : Prop where
  rests   : u.dm.leaves[i].names o.chs = false → t.dm.leaves[i] = u.dm.leaves[i] ∧ t.dm.stats[i] = u.dm.stats[i]
  leaf    : u.dm.leaves[i].names o.chs = true →
    t.dm.leaves[i] = (u.handedRun o.chs i).result u ∧ t.dm.stats[i] = (u.handedRun o.chs i).stats
  doorway : u.dm.leaves[i].names o.chs = true → (u.handedRun o.chs i).entered ≠ [] →
    (∀ w, u.dm.leaves[i].doorway = some w → t.dm.doorway[w] = t.dm.worst w) ∧
      t.dm.doorsClear = (decide u.inRun && t.dm.allSecure)
  lock    : u.dm.leaves[i].names o.chs = true →
    ((u.handedRun o.chs i).result u).lockFault ≠ u.dm.leaves[i].lockFault →
      t.fm.present (.doorLock i) = ((u.handedRun o.chs i).result u).lockFault
  input   : u.dm.leaves[i].names o.chs = true →
    ((u.handedRun o.chs i).result u).inputFault ≠ u.dm.leaves[i].inputFault →
      t.fm.present (.doorInput i) = ((u.handedRun o.chs i).result u).inputFault

/-- The other blocks' parts leave the doors alone. -/
theorem handPart_dm {p : HandPart} (other : ∀ j, p ≠ .leaf j) (t : State) : (o.run p t).dm = t.dm := by
  cases p with
  | gauge g =>
    show (if _ then deriveGauge g t else t).dm = _
    split
    · exact (deriveGauge_only t g).dm
    · rfl
  | leaf j => exact absurd rfl (other j)
  | warnings => exact (evaluateChannels_only t _).dm
  | faults => exact (handPresences_only t _).dm
  | motion =>
    refine inFreeOrder_induct (fun u => u.dm = t.dm) rfl fun v hv u h => ?_
    simp only [List.mem_cons, Prod.mk.injEq, List.not_mem_nil, or_false] at hv
    rcases hv with ⟨-, rfl⟩ | ⟨-, rfl⟩
    · rwa [(handMotionToWm_only u).dm]
    · unfold sessionTakesMotion
      split
      · exact h
      · rwa [(endSession_only u _).dm]

theorem doorSource_disjoint {j : Fin 8} (other : j ≠ i) {src : FaultSource} (h : doorSource i src) :
    ¬ doorSource j src := by
  cases src <;> first | exact absurd h id | exact fun k => other (k.symm.trans h)

/-- Another leaf's turn. -/
theorem State.LeafHanded.leaf_rests (h : u.LeafHanded o i t) {j : Fin 8} (ne : j ≠ i) (live : t.live) (run : t.sc.opState = u.sc.opState) :
    u.LeafHanded o i (o.run (.leaf j) t) := by
  have e : o.run (.leaf j) t = if t.dm.leaves[j].names o.chs then concludeLeaf j (t.handedRun o.chs j) t else t :=
    leafTakes_live o live j
  rw [e]
  split
  · obtain ⟨rests, leaf, doorway, lock, input⟩ := h
    have stored := concludeLeaf_stores j (t.handedRun o.chs j) t
    have of := handedRun_of t o.chs j
    obtain ⟨leaf', stats'⟩ := stored.others (Ne.symm ne)
    have touched := concludeLeaf_grows j (t.handedRun o.chs j) t
    have off {src : FaultSource} (door : doorSource i src) (notWarning : ¬ warningSource src) :
        (concludeLeaf j (t.handedRun o.chs j) t).fm.present src = t.fm.present src :=
      touched.present src fun h => h.elim notWarning (doorSource_disjoint ne door)
    have inRun : decide t.inRun = decide u.inRun := by
      unfold State.inRun
      rw [run]
    refine ⟨fun off => ?_, fun on => ?_, fun on moved => ?_, fun on changed => ?_, fun on changed => ?_⟩
    · rw [leaf', stats']
      exact rests off
    · rw [leaf', stats']
      exact leaf on
    · obtain ⟨worst, clear⟩ := doorway on moved
      rw [← inRun] at clear ⊢
      exact ⟨fun w named => stored.worst of (worst w named), stored.secure of clear⟩
    · rw [off (src := .doorLock i) rfl id]
      exact lock on changed
    · rw [off (src := .doorInput i) rfl id]
      exact input on changed
  · exact h

/-- The turn of another block. -/
theorem State.LeafHanded.rests_dm (h : u.LeafHanded o i t) {v : State} (dm : v.dm = t.dm)
    (lock : v.fm.present (.doorLock i) = t.fm.present (.doorLock i))
    (input : v.fm.present (.doorInput i) = t.fm.present (.doorInput i)) : u.LeafHanded o i v := by
  obtain ⟨rests, leaf, doorway, hlock, hinput⟩ := h
  rw [← dm] at rests leaf doorway
  rw [← lock] at hlock
  rw [← input] at hinput
  exact ⟨rests, leaf, doorway, hlock, hinput⟩

/-- The leaf's own turn. -/
theorem leafHanded_run (ci : t.ci = u.ci) (run : t.sc.opState = u.sc.opState) (live : t.live) (leaf : t.dm.leaves[i] = u.dm.leaves[i])
    (stats : t.dm.stats[i] = u.dm.stats[i]) : u.LeafHanded o i (o.run (.leaf i) t) := by
  have e : o.run (.leaf i) t = if u.dm.leaves[i].names o.chs then concludeLeaf i (u.handedRun o.chs i) t else t := by
    rw [← leaf, ← handedRun_congr ci leaf stats]
    exact leafTakes_live o live i
  have result : (u.handedRun o.chs i).result t = (u.handedRun o.chs i).result u := result_congr ci _
  rw [e]
  cases named : u.dm.leaves[i].names o.chs with
  | false =>
    rw [if_neg Bool.false_ne_true]
    exact ⟨fun _ => ⟨leaf, stats⟩, fun on => absurd (named.symm.trans on) nofun, fun on => absurd (named.symm.trans on) nofun,
      fun on => absurd (named.symm.trans on) nofun, fun on => absurd (named.symm.trans on) nofun⟩
  | true =>
    rw [if_pos rfl]
    have stored := concludeLeaf_stores i (u.handedRun o.chs i) t
    obtain ⟨lock, input⟩ := concludeLeaf_presences i (u.handedRun o.chs i) t
    rw [result, leaf] at lock input
    have of := handedRun_of u o.chs i
    refine ⟨fun off => absurd (named.symm.trans off) nofun, fun _ => ⟨by rw [stored.leaf, result], ?_⟩, fun _ moved => ⟨fun w at_ => ?_, ?_⟩,
      fun _ => lock, fun _ => input⟩
    · rw [stored.stats, vset_self]
    · have doorway : ((u.handedRun o.chs i).result t).doorway = some w := by
        rw [← at_]
        exact congrArg (fun c => Option.map _ c) of.cfg
      rw [stored.doorway w, if_pos ⟨moved, doorway⟩]
    · have inRun : decide t.inRun = decide u.inRun := by
        unfold State.inRun
        rw [run]
      rw [stored.clear, if_neg moved, inRun]

end

/-- A leaf after a hand-over in RUN or SHUTDOWN. -/
theorem State.Hands.leaf {s u : State} {all moved : Bool} {faults : List (FaultSource × Bool)} (h : s.Hands u all moved)
    (hands : HandsPresences faults) (i : Fin 8) :
    u.LeafHanded (u.handOver s.ci all faults) i (u.handed s.ci all moved faults) := by
  have view : Only [.wm] u (viewChannels (changedChannels s.ci u.ci) u) := viewChannels_only u _
  rw [handed_eq]
  have untouched {q : HandPart} (other : ∀ j, q ≠ .leaf j) {src : FaultSource} (door : doorSource i src)
      (notWarning : ¬ warningSource src) (t : State) :
      ((u.handOver s.ci all faults).run q t).fm.present src = t.fm.present src := by
    refine (handPart_grows _ q t).present src ?_
    cases q with
    | leaf j => exact absurd rfl (other j)
    | faults => exact fun ⟨p, mem⟩ => (hands.source src p mem).2 i door
    | gauge _ | warnings | motion => exact notWarning
  refine (handOver_at
    (fun t => Only handParts u t ∧ t.dm.leaves[i] = u.dm.leaves[i] ∧ t.dm.stats[i] = u.dm.stats[i])
    (fun t => Only handParts u t ∧ u.LeafHanded (u.handOver s.ci all faults) i t) (.leaf i)
    ⟨view.mono.trans (.free (by decide)), ?_, ?_⟩ (fun q ne t => ?_) (fun _ t ⟨only, leaf, stats⟩ => ?_)
    fun idle t ⟨only, leaf, stats⟩ => ?_).2
  · show (viewChannels _ u).dm.leaves[i] = _
    rw [view.dm]
  · show (viewChannels _ u).dm.stats[i] = _
    rw [view.dm]
  · have onlyQ := handPart_only (u.handOver s.ci all faults) q t
    by_cases isLeaf : ∃ j, q = .leaf j
    · obtain ⟨j, rfl⟩ := isLeaf
      have other : j ≠ i := fun e => ne (by rw [e])
      refine ⟨fun ⟨only, leaf, stats⟩ => ⟨only.trans onlyQ, ?_⟩, fun ⟨only, taken⟩ => ⟨only.trans onlyQ,
        taken.leaf_rests other (h.liveAt only) only.opState⟩⟩
      have e : (u.handOver s.ci all faults).run (.leaf j) t =
          if t.dm.leaves[j].names (u.handOver s.ci all faults).chs then
            concludeLeaf j (t.handedRun (u.handOver s.ci all faults).chs j) t else t := leafTakes_live _ (h.liveAt only) j
      rw [e]
      split
      · obtain ⟨leaf', stats'⟩ := (concludeLeaf_stores j (t.handedRun (u.handOver s.ci all faults).chs j) t).others other.symm
        exact ⟨leaf'.trans leaf, stats'.trans stats⟩
      · exact ⟨leaf, stats⟩
    · have other : ∀ j, q ≠ .leaf j := fun j e => isLeaf ⟨j, e⟩
      have dm := handPart_dm (o := u.handOver s.ci all faults) other t
      refine ⟨fun ⟨only, leaf, stats⟩ => ⟨only.trans onlyQ, by rw [dm]; exact leaf, by rw [dm]; exact stats⟩,
        fun ⟨only, taken⟩ => ⟨only.trans onlyQ, taken.rests_dm dm ?_ ?_⟩⟩
      · exact untouched other (src := .doorLock i) rfl id t
      · exact untouched other (src := .doorInput i) rfl id t
  · exact ⟨only.trans (handPart_only _ (.leaf i) t), leafHanded_run only.ci only.opState (h.liveAt only) leaf stats⟩
  · have off : u.dm.leaves[i].names (u.handOver s.ci all faults).chs = false := by
      simpa using List.any_eq_false.1 idle i (List.mem_finRange i)
    exact ⟨only, fun _ => ⟨leaf, stats⟩, fun on => absurd (off.symm.trans on) nofun, fun on => absurd (off.symm.trans on) nofun,
      fun on => absurd (off.symm.trans on) nofun, fun on => absurd (off.symm.trans on) nofun⟩

end Sys2Proof.Machine
end

section
/-! PROOFS. A hand-over at a leaf as the rules have it (R127 to R137). -/

namespace Sys2Proof.Machine

set_option Elab.async false

section
variable {s u t : State} {i : Fin 8} {c : LeafCfg} {chs : List (Fin 40)}

theorem names_iff (cfg : s.dm.leaves[i].cfg = some c) : s.dm.leaves[i].names (changedChannels s.ci t.ci) = true ↔
    s.leafHanded t c := by
  unfold Leaf.names State.leafHanded
  simp only [cfg, List.any_eq_true, List.mem_finRange, true_and]
  refine exists_congr fun slot => ?_
  cases c.inputs[slot] with
  | none => simp
  | some x => simp only [decide_eq_true_eq, mem_changedChannels, Option.some.injEq, exists_eq_left']

theorem allSecure_iff (d : DoorMon) : d.allSecure = true ↔ ∀ (j : Fin 8) (k : LeafCfg), d.leaves[j].cfg = some k →
    d.leaves[j].state = .locked ∨ (d.leaves[j].state = .closed ∧ d.leaves[j].hasLock = false) := by
  unfold DoorMon.allSecure
  rw [List.all_eq_true]
  refine ⟨fun h j k cfg => ?_, fun h j _ => ?_⟩
  · have secure := h j (List.mem_finRange j)
    rw [cfg, Option.isNone_some, Bool.false_or] at secure
    simpa [Leaf.secure, secureState] using secure
  · cases cfg : d.leaves[j].cfg with
    | none => rfl
    | some k =>
      rw [Option.isNone_some, Bool.false_or]
      simpa [Leaf.secure, secureState] using h j k cfg

/-- A leaf as a handed evaluation leaves it, with the inputs and the readings it was evaluated on. -/
theorem handedRun_result (u : State) (chs : List (Fin 40)) (i : Fin 8) :
    ((u.handedRun chs i).result u).readings = u.leafReadings u.dm.leaves[i] chs ∧
    Leaf.SeesAs { u.dm.leaves[i] with readings := ((u.handedRun chs i).result u).readings } ((u.handedRun chs i).result u) := by
  obtain ⟨sees, -, -⟩ := handedRun_sees u chs i
  have readings : ((u.handedRun chs i).result u).readings = u.leafReadings u.dm.leaves[i] chs := sees.readings
  exact ⟨readings, sees.cfg, sees.counted, rfl⟩

/-- The leaf and its statistics after a handed evaluation, without what depends on the other leaves and the FM. -/
theorem handedRun_takes (cfg : u.dm.leaves[i].cfg = some c) (chs : List (Fin 40)) :
    let a := u.dm.leaves[i]
    let d := u.dm.stats[i]
    let r := u.handedRun chs i
    let b := r.result u
    let es := r.entered
    a.enters b es ∧ b.state = (es.getLast?).getD a.state ∧
      (b.cycleMark, r.stats.cycles) = es.foldl b.counts (a.cycleMark, d.cycles) ∧
      r.stats.obstructions = (if .obstructed ∈ es then min 65535 (d.obstructions + es.count .obstructed)
        else d.obstructions) ∧
      (es = [] → b.travelT = a.travelT ∧ b.lockT = a.lockT ∧ b.closingT = a.closingT) ∧
      (es ≠ [] →
        b.travelT = (if b.state = .opening ∧ b.hasOpenEnd = false then some (100 * c.travel) else none) ∧
        b.lockT = (if b.state = .closed ∧ b.hasLock = true then some (100 * c.lockTo) else none) ∧
        b.closingT = (if b.state = .closing then some 0 else none)) ∧
      b.lockFault = (a.lockFault && decide (.locked ∉ es)) ∧
      (let m := min 65535 (a.closingT.getD 0 / 10)
       let slow := 10 * c.closing < m
       let measured := a.state = .closing ∧ (es = [.closed] ∨ es = [.locked])
       (measured → b.slow = decide slow ∧ r.stats.slow = (if slow then min 65535 (d.slow + 1) else d.slow) ∧
          r.stats.mean = some (match d.mean with
            | some v => ((v : Int) + ((m : Int) - v).tdiv 8).toNat
            | none => m)) ∧
       (¬ measured → .closing ∉ es → b.slow = a.slow ∧ r.stats.slow = d.slow ∧ r.stats.mean = d.mean)) := by
  intro a d r b es
  obtain ⟨readings, seesB⟩ := handedRun_result u chs i
  obtain ⟨sees, entered, state⟩ := handedRun_sees u chs i
  set l : Leaf := { a with readings := u.leafReadings a chs } with l_eq
  set now : Fin 5 → Bool := fun slot => decide (l.readings[slot] ≠ a.readings[slot]) with now_eq
  have moved : r = (u.leafRun i l).moves es := by
    show u.handedRun chs i = _
    rw [show es = l.entries now from entered]
    rfl
  have cfgL : (u.leafRun i l).leaf.cfg = some c := cfg
  have counts : b.counts = l.counts := sees.tables.2.2.2.2.2.2.2
  obtain ⟨cycles, obstructions, fault⟩ := moves_counts (u.leafRun i l) es
  rw [← moved] at cycles obstructions fault
  refine ⟨?_, state, by rw [counts]; exact cycles, obstructions, fun stays => ?_, fun enters => ?_, fault, ?_⟩
  · have entries := entries_enter seesB
    have same : ({ a with readings := b.readings } : Leaf) = l := by rw [readings]
    have asked : (fun slot => decide (b.readings[slot] ≠ a.readings[slot])) = now := by
      funext slot
      show decide (((u.handedRun chs i).result u).readings[slot] ≠ _) = _
      simp only [readings, now_eq, l_eq]
      rfl
    have es_eq : es = ({ a with readings := b.readings } : Leaf).entries fun slot =>
        decide (b.readings[slot] ≠ a.readings[slot]) := by
      rw [same, asked]
      exact entered
    rw [es_eq]
    exact entries
  · have still : r.leaf = l := by
      rw [moved, stays]
      rfl
    have leaf : b = { r.leaf with inputFault := u.inputFaultNow r.leaf } := rfl
    rw [leaf, still]
    exact ⟨rfl, rfl, rfl⟩
  · have timers := moves_timers (u.leafRun i l) es cfgL enters
    rw [← moved] at timers
    exact timers
  · have closing := moves_closing (r := u.leafRun i l) (changed := now) cfgL
    rw [show (u.leafRun i l).leaf.entries now = es from entered.symm] at closing
    dsimp only at closing
    rw [← moved] at closing
    exact closing

/-- A hand-over at the leaves as the rules have it. -/
theorem State.Hands.leafTakes {all moved : Bool} {faults : List (FaultSource × Bool)} (h : s.Hands u all moved)
    (hands : HandsPresences faults) (i : Fin 8) : s.leafTakes (u.handed s.ci all moved faults) i := by
  set t := u.handed s.ci all moved faults with t_eq
  have ci : t.ci = u.ci := (handed_only u s.ci all moved faults).ci
  have dm : u.dm = s.dm := h.only.dm
  have taken : u.LeafHanded (u.handOver s.ci all faults) i t := h.leaf hands i
  set chs := changedChannels s.ci t.ci with chs_eq
  have chs' : (u.handOver s.ci all faults).chs = chs := by
    rw [chs_eq, ci]
    rfl
  obtain ⟨rests, leaf, doorway, lock, input⟩ := taken
  rw [chs'] at rests leaf doorway lock input
  refine ⟨fun free => ?_, fun c cfg => ⟨fun not => ?_, fun handed => ?_⟩⟩
  · rw [← dm]
    refine rests ?_
    unfold Leaf.names
    rw [dm, free]
  · rw [← dm]
    refine rests ?_
    rw [dm, ← Bool.not_eq_true, names_iff cfg]
    exact not
  · have on : u.dm.leaves[i].names chs = true := by
      rw [dm]
      exact (names_iff cfg).2 handed
    have cfgU : u.dm.leaves[i].cfg = some c := by rw [dm, cfg]
    obtain ⟨leafT, statsT⟩ := leaf on
    obtain ⟨readings, seesB⟩ := handedRun_result u chs i
    obtain ⟨enters, state, cycles, obstructions, stays, timed, fault, closing⟩ := handedRun_takes cfgU chs
    have runU : u.sc = s.sc := h.sc
    set r := u.handedRun chs i with r_eq
    rw [dm] at enters state cycles obstructions stays fault closing readings seesB
    have of := handedRun_of u chs i
    refine ⟨?_, ?_, fun slot => ?_, r.entered, ?_⟩
    · rw [leafT]
      exact seesB.cfg
    · rw [leafT]
      exact seesB.counted
    · rw [leafT, readings]
      exact leafReadings_takes u s.ci t.ci ci.symm _ slot
    · rw [leafT, statsT]
      refine ⟨enters, state, cycles, obstructions, stays, fun moved => ?_, fault, closing, ?_, fun changed => ?_, fun changed => ?_⟩
      · obtain ⟨worst, clear⟩ := doorway on moved
        obtain ⟨travel, lockT, closingT⟩ := timed moved
        refine ⟨travel, lockT, closingT, worst c.doorway ?_, ?_⟩
        · rw [Leaf.doorway, cfgU]
          rfl
        · have run : decide u.inRun = decide (s.sc.opState = .run) := by
            unfold State.inRun
            rw [runU]
          rw [clear, run, Bool.and_eq_true, decide_eq_true_eq, allSecure_iff]
      · have fault : (r.result u).inputFault = u.inputFaultNow (r.result u) := rfl
        rw [fault, inputFaultNow_iff, ci]
      · exact lock on (by rwa [dm])
      · exact input on (by rwa [dm])

end

end Sys2Proof.Machine
end

section
/-! PROOFS. The order in which the parts of a hand-over act, and what each part finds: the gauges and leaves whose turn has not come are
as they were (log 10). -/

namespace Sys2Proof.Machine

set_option Elab.async false

/-! ## The order of the parts -/

section
variable {o : HandOver} {moved : Bool} {s u : State}

theorem groups_nodup (o : HandOver) (moved : Bool) (s : State) : ((o.groups moved s).flatMap (·.2)).Nodup := by
  simp only [HandOver.groups, List.flatMap_cons, List.flatMap_nil, List.append_nil]
  decide

theorem mem_groups (p : HandPart) : (∃ g ∈ o.groups moved s, g.1 = true ∧ p ∈ g.2) ↔ o.active moved s p = true := by
  cases p <;> simp [HandOver.groups, HandOver.active]

/-- The blocks with something to do act once each, in some order. -/
theorem handOver_order (o : HandOver) (moved : Bool) (s u : State) : ∃ order : List HandPart, order.Nodup ∧
    (∀ p, p ∈ order ↔ o.active moved s p = true) ∧
    inFreeOrder (o.units (o.groups moved s)) u = o.runAll order { u with freeCount := u.freeCount + 1 } := by
  obtain ⟨work, perm, e⟩ := inFreeOrder_eq (o.units (o.groups moved s)) u
  have active : activeUnits (o.units (o.groups moved s)) =
      ((o.groups moved s).filter (·.1)).map fun g => o.runAll g.2 := by
    simp only [activeUnits, HandOver.units, List.filter_map, List.map_map]
    rfl
  rw [active] at perm
  obtain ⟨chosen, rfl, among⟩ : ∃ chosen : List (Bool × List HandPart), work = chosen.map (fun g => o.runAll g.2) ∧
      chosen.Perm ((o.groups moved s).filter (·.1)) := by
    have both := (congrFun₂ (List.eq_map_comp_perm fun g : Bool × List HandPart => o.runAll g.2) work _).mpr perm
    exact both
  have parts : (chosen.flatMap (·.2)).Perm (((o.groups moved s).filter (·.1)).flatMap (·.2)) := among.flatMap_right _
  refine ⟨chosen.flatMap (·.2), ?_, fun p => ?_, ?_⟩
  · exact parts.nodup_iff.2 ((groups_nodup o moved s).sublist (List.filter_sublist.flatMap _))
  · rw [parts.mem_iff, ← mem_groups p]
    simp only [List.mem_flatMap, List.mem_filter, and_assoc]
  · rw [e, HandOver.runAll, List.foldl_flatMap, List.foldl_map]
    rfl

/-- What holds with some parts still to act. -/
theorem runAll_induct (I : List HandPart → State → Prop) (turn : ∀ p ps t, p ∉ ps → I (p :: ps) t → I ps (o.run p t)) :
    ∀ (ps : List HandPart) (t : State), ps.Nodup → I ps t → I [] (o.runAll ps t)
  | [], _, _, h => h
  | p :: ps, t, nodup, h =>
    runAll_induct I turn ps (o.run p t) (List.nodup_cons.1 nodup).2 (turn p ps t (List.nodup_cons.1 nodup).1 h)

end

end Sys2Proof.Machine
end

section
/-! PROOFS. Which warnings the parts of a hand-over ask, and on what view (R97). -/

namespace Sys2Proof.Machine

set_option Elab.async false

/-! ## What a part finds -/

/-- With some parts of a hand-over still to act, their gauges show and their leaves stand as in `u`. -/
structure State.Awaits (u : State) (rest : List HandPart) (t : State) : Prop where
  only  : Only handParts u t
  gauge : ∀ g, .gauge g ∈ rest → u.ge[g].Shows t.ge[g]
  leaf  : ∀ i, .leaf i ∈ rest →
    t.dm.leaves[i] = u.dm.leaves[i] ∧ t.dm.stats[i] = u.dm.stats[i] ∧ t.dm.conds[i] = u.dm.conds[i]

section
variable {o : HandOver} {p : HandPart} {ps : List HandPart} {s t u : State}

theorem State.Awaits.live (h : u.Awaits ps t) (live : u.live) : t.live := by
  unfold State.live
  rw [h.only.opState]
  exact live

/-- One part has acted. -/
theorem State.Awaits.turn (h : u.Awaits (p :: ps) t) (fresh : p ∉ ps) (live : u.live) : u.Awaits ps (o.run p t) := by
  refine ⟨h.only.trans (handPart_only o p t), fun g mem => ?_, fun i mem => ?_⟩
  · have other : p ≠ .gauge g := fun e => fresh (e ▸ mem)
    exact handPart_shows other t (h.gauge g (List.mem_cons_of_mem _ mem))
  · obtain ⟨leaf, stats, conds⟩ := h.leaf i (List.mem_cons_of_mem _ mem)
    by_cases isLeaf : ∃ j, p = .leaf j
    · obtain ⟨j, rfl⟩ := isLeaf
      have other : i ≠ j := fun e => fresh (e ▸ mem)
      have e : o.run (.leaf j) t = if t.dm.leaves[j].names o.chs then concludeLeaf j (t.handedRun o.chs j) t else t :=
        leafTakes_live o (h.live live) j
      rw [e]
      split
      · have stored := concludeLeaf_stores j (t.handedRun o.chs j) t
        obtain ⟨leaf', stats'⟩ := stored.others other
        exact ⟨leaf'.trans leaf, stats'.trans stats, (stored.conds i other).trans conds⟩
      · exact ⟨leaf, stats, conds⟩
    · rw [handPart_dm fun j e => isLeaf ⟨j, e⟩]
      exact ⟨leaf, stats, conds⟩

/-! ## What a part hands to the Warning Manager -/

/-- The conditions that a part's hand-over to the WM asks. -/
def HandOver.reads (o : HandOver) : HandPart → Condition → Bool
  | .gauge g => (·.readsGauge g)
  | .leaf i => (·.readsLeaf i)
  | .warnings => fun c => o.chs.any c.readsChannel
  | .faults => fun _ => false
  | .motion => fun c => decide (c = .motionUnknown)

/-- The display value of a gauge after its turn. -/
def HandOver.display (o : HandOver) (u : State) (g : Fin 8) : Option Int := (o.shows u.ci u.ge[g]).display

/-- The leaf conditions after its turn. -/
def HandOver.conds (o : HandOver) (u : State) (i : Fin 8) : DoorCond :=
  if u.dm.leaves[i].names o.chs then ((u.handedRun o.chs i).result u).conds else u.dm.leaves[i].conds

/-- The view as a part hands it. -/
def HandOver.hands (o : HandOver) (u : State) : HandPart → View → View
  | .gauge g => fun v => { v with display := vset v.display g (o.display u g) }
  | .leaf i => fun v => { v with door := vset v.door i (o.conds u i) }
  | .warnings | .faults => id
  | .motion => fun v => { v with motion := u.ci.motion }

/-- A part hands something that a definition reads. -/
def HandOver.asks (o : HandOver) (u : State) (d : WarnDef) : HandPart → Prop
  | .gauge g => d.cond.readsGauge g = true ∧ o.display u g ≠ u.ge[g].display
  | .leaf i => d.cond.readsLeaf i = true ∧ u.dm.leaves[i].names o.chs = true ∧ u.dm.conds[i] ≠ some (o.conds u i)
  | .warnings => o.chs.any d.cond.readsChannel = true
  | .faults => False
  | .motion => d.readsMotion = true

/-! ## A gauge's turn -/

/-- A gauge takes a hand-over: its own work, and then the display value where it has changed. -/
theorem gaugeTakes_hands {g : Fin 8} (shown : u.ge[g].Shows t.ge[g]) (ci : t.ci = u.ci) (live : t.live) :
    ∃ w, Only [.reports, .ge] t w ∧ w.ge[g].display = o.display u g ∧
      o.gaugeTakes g t = if o.display u g ≠ u.ge[g].display then handDisplay g w else w := by
  have rests (display : o.display u g = u.ge[g].display) (e : o.gaugeTakes g t = t) : ∃ w, Only [.reports, .ge] t w ∧
      w.ge[g].display = o.display u g ∧
      o.gaugeTakes g t = if o.display u g ≠ u.ge[g].display then handDisplay g w else w :=
    ⟨t, .refl _ _, by rw [display, shown.display], by rw [if_neg (not_not_intro display), e]⟩
  cases record : u.ge[g].record with
  | none =>
    refine rests (by rw [HandOver.display, HandOver.shows, record]) ?_
    unfold HandOver.gaugeTakes
    rcases deriveGauge_cases g t with ⟨-, e⟩ | ⟨r, some, -⟩
    · rw [e, ite_self]
    · rw [shown.record, record] at some
      exact absurd some nofun
  | some r =>
    have reads : t.gaugeReads o.chs g = decide (r.source ∈ o.chs) := by
      unfold State.gaugeReads
      simp only [shown.record, record]
    by_cases handed : (o.all || decide (r.source ∈ o.chs)) = true
    · have shows : o.shows u.ci u.ge[g] = u.ge[g].derived r u.ci.refFault (u.ci.eff r.source) := by
        rw [HandOver.shows, record]
        exact if_pos handed
      have takes : o.gaugeTakes g t = deriveGauge g t := by
        rw [HandOver.gaugeTakes, reads]
        exact if_pos handed
      rcases deriveGauge_cases g t with ⟨stays, -⟩ | ⟨r', record', -, e⟩
      · exact absurd live (stays.resolve_left (by rw [shown.record, record]; nofun))
      · obtain rfl : r = r' := Option.some.inj ((shown.record.trans record).symm.trans record')
        have same := shown.derived r t.ci.refFault (t.ci.eff r.source)
        have display : o.display u g = (t.ge[g].derived r t.ci.refFault (t.ci.eff r.source)).display := by
          rw [same.display, HandOver.display, shows, ci]
        rw [takes, e, display, ← shown.display]
        set y := t.ge[g].derived r t.ci.refFault (t.ci.eff r.source) with y_eq
        refine ⟨_, ?_, ?_, rfl⟩
        · exact (modGauge_only t g _).mono.andThen (Only.ite (report_only _ _ _ _) (.refl _ _))
        · have reported {b : Bool} {x : State} {v : Option Word16} :
              (if b then report .gaugeLimited g.val v x else x).ge = x.ge := by
            split <;> rfl
          rw [reported, State.modGauge_ge, vmod_self]
    · have shows : o.shows u.ci u.ge[g] = u.ge[g] := by
        rw [HandOver.shows, record]
        exact if_neg handed
      refine rests (by rw [HandOver.display, shows]) ?_
      rw [HandOver.gaugeTakes, reads]
      exact if_neg handed

end

end Sys2Proof.Machine
end

section
/-! PROOFS. A warning at each part of a hand-over: the part asks it on the view it hands, or leaves it (R97 to R99, R109). -/

namespace Sys2Proof.Machine

set_option Elab.async false

section
variable {o : HandOver} {p : HandPart} {ps : List HandPart} {s t u : State} {w : Fin 64} {d : WarnDef} {i : Fin 8} {g : Fin 8}

/-- Work that is not the Warning Manager's, with its sources at the FM. -/
theorem State.Unasked.ofOthers (wm : t.wm = s.wm) (present : t.fm.present (.warning w) = s.fm.present (.warning w)) :
    s.Unasked w d t :=
  ⟨by rw [wm], by rw [wm], by rw [wm], fun _ => by rw [wm], present⟩

/-! ## The leaf's turn -/

/-- What concluding an evaluation does beside its conditions. -/
theorem leafConcluded_unasked (i : Fin 8) (r : LeafRun) (t : State) : t.Unasked w d (t.leafConcluded i r) :=
  .ofSame (leafConcluded_only i r t).wm (leafConcluded_only i r t).fm

/-- A unit of a concluded evaluation that is not the conditions' leaves the warnings, the doors and the controller. -/
structure LeafAside (f : State → State) : Prop where
  wm      : ∀ v, (f v).wm = v.wm
  dm      : ∀ v, (f v).dm = v.dm
  sc      : ∀ v, (f v).sc = v.sc
  present : ∀ v (w : Fin 64), (f v).fm.present (.warning w) = v.fm.present (.warning w)

theorem LeafAside.setPresence {src : FaultSource} (door : ¬ warningSource src) (b : Bool) : LeafAside (setPresence src b) where
  wm v := (setPresence_only v _ _).wm
  dm v := (setPresence_only v _ _).dm
  sc v := (setPresence_only v _ _).sc
  present v w := (setPresence_grows src b v).present _ fun e => door (e ▸ trivial)

theorem LeafAside.fireSource {src : FaultSource} (door : ¬ warningSource src) : LeafAside (fireSource src) where
  wm v := (fireSource_only v _).wm
  dm v := (fireSource_only v _).dm
  sc v := (fireSource_only v _).sc
  present v w := (fireSource_grows src v).present _ fun e => door (e ▸ trivial)

theorem LeafAside.queueDoorStats : LeafAside queueDoorStats where
  wm v := (queueDoorStats_only v).wm
  dm v := (queueDoorStats_only v).dm
  sc v := (queueDoorStats_only v).sc
  present v w := by rw [(queueDoorStats_only v).fm]

theorem LeafAside.unasked {f : State → State} (h : LeafAside f) (v : State) : v.Unasked w d (f v) :=
  .ofOthers (h.wm v) (h.present v w)

/-- The conditions of a concluded evaluation are one unit among others that leave the warnings. -/
theorem concludeLeaf_units (i : Fin 8) (r : LeafRun) (t : State) : ∃ post : List (Bool × (State → State)),
    concludeLeaf i r t = inFreeOrder
      ((decide (t.leafConcluded i r).inRun && decide ((t.leafConcluded i r).dm.conds[i] ≠ some (r.result t).conds),
        handConds i) :: post) (t.leafConcluded i r) ∧ ∀ v, (true, v) ∈ post → LeafAside v := by
  refine ⟨_, concludeLeaf_eq i r t, fun v hv => ?_⟩
  simp only [List.mem_cons, Prod.mk.injEq, List.not_mem_nil, or_false] at hv
  rcases hv with ⟨-, rfl⟩ | ⟨-, rfl⟩ | ⟨-, rfl⟩ | ⟨-, rfl⟩
  · exact .setPresence id _
  · exact .fireSource id
  · exact .setPresence id _
  · exact .queueDoorStats

theorem leafConcluded_conds (i : Fin 8) (r : LeafRun) (t : State) : (t.leafConcluded i r).dm.conds = t.dm.conds := by
  have reported : ((t.leafStored i r).leafReported i r).dm.conds = t.dm.conds := by
    rw [(leafReported_only i r _).dm]
    rfl
  unfold State.leafConcluded
  dsimp only
  split
  · exact reported
  · show (setDoorsClear _ _).dm.conds = _
    rw [setDoorsClear_dm, (deriveDoorwayOf_doorway _ _).1, reported]

theorem concludeLeaf_unasked {r : LeafRun} (def? : t.wm.defs[w] = some d)
    (off : d.cond.readsLeaf i = true → t.dm.conds[i] = some (r.result t).conds) : t.Unasked w d (concludeLeaf i r t) := by
  obtain ⟨post, e, aside⟩ := concludeLeaf_units i r t
  rw [e]
  have start := leafConcluded_unasked (w := w) (d := d) i r t
  refine inFreeOrder_induct (t.Unasked w d) (start.trans (.ofSame rfl rfl)) fun v hv x h => ?_
  rcases List.mem_cons.1 hv with here | other
  · obtain ⟨flag, rfl⟩ := Prod.mk.inj here
    have hands := (Bool.and_eq_true _ _ ▸ flag.symm).2
    rw [decide_eq_true_eq, leafConcluded_conds] at hands
    have silent : d.cond.readsLeaf i = false := by
      rw [← Bool.not_eq_true]
      exact fun reads => hands (off reads)
    set y := x.modDm fun m => { m with conds := vset m.conds i (some x.dm.leaves[i].conds) } with y_eq
    have given : x.Unasked w d y := .ofSame rfl rfl
    have def' : y.wm.defs[w] = some d := by rw [given.defs, h.defs, def?]
    exact (h.trans given).trans (handDoorCond_unasked (s := y) x.dm.leaves[i].conds def' silent)
  · exact h.trans ((aside v other).unasked x)

/-- An evaluation that changes what a definition reads asks it on the view with the leaf's conditions. -/
theorem concludeLeaf_asks {r : LeafRun} {v : View} (run : t.sc.opState = .run) (view : t.wm.view = some v)
    (def? : t.wm.defs[w] = some d) (on : d.cond.readsLeaf i = true) (changed : t.dm.conds[i] ≠ some (r.result t).conds) :
    let f : View → View := fun v => { v with door := vset v.door i (r.result t).conds }
    State.Acted w d (t.wm.inst[w].updated d (·.readsLeaf i) (f v))
      ((t.wm.inst[w].updated d (·.readsLeaf i) (f v)).qualified d (f v)) (concludeLeaf i r t) := by
  intro f
  obtain ⟨post, e, aside⟩ := concludeLeaf_units i r t
  have stored := (leafConcluded_stores i r t).leaf
  have opState : (t.leafConcluded i r).sc = t.sc := (leafConcluded_only i r t).sc
  have flag : (decide (t.leafConcluded i r).inRun && decide ((t.leafConcluded i r).dm.conds[i] ≠ some (r.result t).conds)) =
      true := by
    have inRun : (t.leafConcluded i r).inRun := by
      rw [State.inRun, opState]
      exact run
    rw [leafConcluded_conds, decide_eq_true inRun, decide_eq_true changed]
    rfl
  rw [e]
  refine inFreeOrder_at (fun x => x.wm = t.wm ∧ x.dm.leaves[i] = r.result t ∧ x.sc = t.sc)
    (State.Acted w d (t.wm.inst[w].updated d (·.readsLeaf i) (f v))
      ((t.wm.inst[w].updated d (·.readsLeaf i) (f v)).qualified d (f v))) [] post
    ⟨(leafConcluded_only i r t).wm, stored, opState⟩ (fun a ha x => ⟨?_, fun h => ?_⟩)
    (fun _ x => ?_) (fun no => absurd (flag.symm.trans no) nofun)
  · rintro ⟨wm, leaf, sc⟩
    have keeps := aside a ha
    exact ⟨(keeps.wm x).trans wm, by rw [keeps.dm, leaf], (keeps.sc x).trans sc⟩
  · exact h.rests ((aside a ha).unasked (d := d) x)
  · rintro ⟨wm, leaf, sc⟩
    set y := x.modDm fun m => { m with conds := vset m.conds i (some x.dm.leaves[i].conds) } with y_eq
    have sameWm : y.wm = t.wm := wm
    have runs : y.sc.opState = .run := by
      show x.sc.opState = .run
      rw [sc, run]
    have asks := handed_asks (s := y) (w := w) (d := d) (reads := (·.readsLeaf i)) (motion := false) (f := f) runs
      (by rw [sameWm, view]) (by rw [sameWm, def?]) (by rw [WarnDef.askedBy, on]; rfl)
    rw [sameWm] at asks
    have e : handConds i x = evaluate (·.readsLeaf i) false (changeView f y) := by
      show handDoorCond i x.dm.leaves[i].conds y = _
      rw [leaf]
      rfl
    rw [e]
    exact asks

end

end Sys2Proof.Machine
end

section
/-! PROOFS. A warning at each part of a hand-over (R97 to R99, R109). -/

namespace Sys2Proof.Machine

set_option Elab.async false

section
variable {o : HandOver} {p : HandPart} {ps : List HandPart} {t u : State} {w : Fin 64} {d : WarnDef} {i : Fin 8} {g : Fin 8}

/-- A leaf's turn among the parts still to act. -/
theorem State.Awaits.leaf_run (h : u.Awaits (.leaf i :: ps) t) (live : u.live) : o.run (.leaf i) t =
    (if u.dm.leaves[i].names o.chs then concludeLeaf i (u.handedRun o.chs i) t else t) ∧
      (u.handedRun o.chs i).result t = (u.handedRun o.chs i).result u := by
  obtain ⟨leaf, stats, -⟩ := h.leaf i List.mem_cons_self
  refine ⟨?_, result_congr h.only.ci _⟩
  rw [← leaf, ← handedRun_congr h.only.ci leaf stats]
  exact leafTakes_live o (h.live live) i

theorem handMotion_aside (s : State) : s.Unasked w d (sessionTakesMotion s) := by
  unfold sessionTakesMotion
  split
  · exact .refl w d s
  · exact .ofSame (endSession_only s _).wm (endSession_only s _).fm

/-- A part that hands nothing a definition reads leaves its instance. -/
theorem handPart_unasked (h : u.Awaits (p :: ps) t) (live : u.live) (hands : HandsPresences o.faults)
    (def? : t.wm.defs[w] = some d) (off : ¬ o.asks u d p) : t.Unasked w d (o.run p t) := by
  cases p with
  | gauge g =>
    obtain ⟨x, only, -, e⟩ := gaugeTakes_hands (o := o) (h.gauge g List.mem_cons_self) h.only.ci (h.live live)
    have own : t.Unasked w d x := .ofSame only.wm only.fm
    show t.Unasked w d (o.gaugeTakes g t)
    rw [e]
    split
    next changed =>
      have silent : d.cond.readsGauge g = false := by
        rw [← Bool.not_eq_true]
        exact fun reads => off ⟨reads, changed⟩
      exact own.trans (handDisplay_unasked (by rw [own.defs, def?]) silent)
    next => exact own
  | leaf i =>
    obtain ⟨e, result⟩ := h.leaf_run (o := o) live
    obtain ⟨-, -, conds⟩ := h.leaf i List.mem_cons_self
    rw [e]
    split
    next named =>
      refine concludeLeaf_unasked def? fun reads => ?_
      by_contra changed
      refine off ⟨reads, named, ?_⟩
      rwa [HandOver.conds, if_pos named, ← conds, ← result]
    next => exact .refl w d t
  | warnings => exact evaluateChannels_unasked def? (Bool.not_eq_true _ ▸ off)
  | faults =>
    refine .ofOthers (handPresences_only t _).wm ((handPart_grows o .faults t).present _ ?_)
    exact fun ⟨b, mem⟩ => (hands.source _ b mem).1 trivial
  | motion =>
    have silent : ¬ (d.cond = .motionUnknown ∨ d.gating ≠ .always) := fun reads => off (readsMotion_iff.2 reads)
    have start : t.Unasked w d (report .motion 0 (val t.ci.motion.code) t) := .ofSame rfl rfl
    refine inFreeOrder_induct (t.Unasked w d) (start.trans (.ofSame rfl rfl)) fun v hv x k => k.trans ?_
    simp only [List.mem_cons, Prod.mk.injEq, List.not_mem_nil, or_false] at hv
    rcases hv with ⟨-, rfl⟩ | ⟨-, rfl⟩
    · exact handMotionToWm_unasked (by rw [k.defs, def?]) (not_not.1 fun gated => silent (.inr gated))
        fun cond => silent (.inl cond)
    · exact handMotion_aside x

/-- A part that hands what a definition reads asks it on the view it hands. -/
theorem handPart_asks {v : View} (h : u.Awaits (p :: ps) t) (run : u.sc.opState = .run) (view : t.wm.view = some v)
    (def? : t.wm.defs[w] = some d) (on : o.asks u d p) :
    State.Acted w d (t.wm.inst[w].updated d (o.reads p) (o.hands u p v))
      ((t.wm.inst[w].updated d (o.reads p) (o.hands u p v)).qualified d (o.hands u p v)) (o.run p t) := by
  have live : u.live := .inl run
  have runs : t.sc.opState = .run := by rw [h.only.opState, run]
  cases p with
  | gauge g =>
    obtain ⟨reads, changed⟩ := on
    obtain ⟨x, only, display, e⟩ := gaugeTakes_hands (o := o) (h.gauge g List.mem_cons_self) h.only.ci (h.live live)
    show State.Acted w d _ _ (o.gaugeTakes g t)
    rw [e, if_pos changed]
    have asks := handed_asks (s := x) (w := w) (d := d) (reads := (·.readsGauge g)) (motion := false)
      (f := o.hands u (.gauge g)) (by rw [only.sc, runs]) (by rw [only.wm, view]) (by rw [only.wm, def?])
      (by rw [WarnDef.askedBy, reads]; rfl)
    rw [only.wm] at asks
    unfold handDisplay
    rw [display]
    exact asks
  | leaf i =>
    obtain ⟨reads, named, changed⟩ := on
    obtain ⟨e, result⟩ := h.leaf_run (o := o) live
    obtain ⟨-, -, conds⟩ := h.leaf i List.mem_cons_self
    have given : o.conds u i = ((u.handedRun o.chs i).result t).conds := by
      rw [HandOver.conds, if_pos named, result]
    rw [e, if_pos named]
    simp only [HandOver.hands, given]
    exact concludeLeaf_asks runs view def? reads (by rwa [conds, ← given])
  | warnings =>
    have asked : d.askedBy (fun c => o.chs.any c.readsChannel) false = true := by
      rw [WarnDef.askedBy, show o.chs.any d.cond.readsChannel = true from on]
      rfl
    exact evaluate_asks runs view def? asked
  | faults => exact on.elim
  | motion =>
    have asked : d.askedBy (fun c => decide (c = .motionUnknown)) true = true := by
      rw [WarnDef.askedBy, show d.readsMotion = true from on, Bool.or_eq_true]
      exact .inr rfl
    refine inFreeOrder_at (fun x => x.wm = t.wm ∧ x.ci = t.ci ∧ x.sc.opState = t.sc.opState)
      (State.Acted w d (t.wm.inst[w].updated d (o.reads .motion) (o.hands u .motion v))
        ((t.wm.inst[w].updated d (o.reads .motion) (o.hands u .motion v)).qualified d (o.hands u .motion v))) [] [_]
      ⟨rfl, rfl, rfl⟩ (fun a ha x => ⟨?_, fun k => ?_⟩) (fun _ x => ?_) (fun no => ?_)
    · rintro ⟨wm, ci, op⟩
      simp only [List.nil_append, List.mem_cons, Prod.mk.injEq, List.not_mem_nil, or_false] at ha
      rw [ha.2]
      unfold sessionTakesMotion
      split
      · exact ⟨wm, ci, op⟩
      · exact ⟨(endSession_only x _).wm.trans wm, (endSession_only x _).ci.trans ci, (endSession_only x _).opState.trans op⟩
    · simp only [List.nil_append, List.mem_cons, Prod.mk.injEq, List.not_mem_nil, or_false] at ha
      rw [ha.2]
      exact k.rests (handMotion_aside (d := d) x)
    · rintro ⟨wm, ci, op⟩
      have asks := handed_asks (s := x) (w := w) (d := d) (reads := fun c => decide (c = .motionUnknown)) (motion := true)
        (f := o.hands u .motion) (by rw [op, runs]) (by rw [wm, view]) (by rw [wm, def?]) asked
      rw [wm] at asks
      unfold handMotionToWm
      rw [ci, h.only.ci]
      exact asks
    · exact absurd (show t.sc.opState = .run from runs) (of_decide_eq_false no)

end

end Sys2Proof.Machine
end

section
/-! PROOFS. What a warning that reads one thing is handed, and by which part (R95 to R97). -/

namespace Sys2Proof.Machine

set_option Elab.async false

/-! ## The classes of conditions -/

section
variable {c : Condition} {ch : Fin 40} {g l : Fin 8}

theorem readsChannel_alone (h : c.readsChannel ch = true) : (∀ x, c.readsChannel x = decide (ch = x)) ∧
    (∀ g, c.readsGauge g = false) ∧ (∀ l, c.readsLeaf l = false) ∧ c ≠ .motionUnknown := by
  cases c
  case switchActive x | channelFault x | channelLost x =>
    obtain rfl : x = ch := of_decide_eq_true h
    exact ⟨fun _ => rfl, fun _ => rfl, fun _ => rfl, nofun⟩
  all_goals exact absurd h nofun

theorem readsGauge_alone (h : c.readsGauge g = true) : (∀ x, c.readsGauge x = decide (g = x)) ∧
    (∀ ch, c.readsChannel ch = false) ∧ (∀ l, c.readsLeaf l = false) ∧ c ≠ .motionUnknown := by
  cases c
  case valueBelow x _ _ | valueAbove x _ _ =>
    obtain rfl : x = g := of_decide_eq_true h
    exact ⟨fun _ => rfl, fun _ => rfl, fun _ => rfl, nofun⟩
  all_goals exact absurd h nofun

/-- The set of one leaf names that leaf alone. -/
theorem oneLeaf_names (l x : Fin 8) : (BitVec.ofNat 8 (2 ^ l.val)).getLsbD x.val = decide (l = x) := by
  revert l x
  decide

/-- A door condition of one leaf. -/
def Condition.ofLeaf (c : Condition) (l : Fin 8) : Prop :=
  let ls := BitVec.ofNat 8 (2 ^ l.val)
  c = .doorNotSecure ls ∨ c = .doorReleased ls ∨ c = .doorObstructed ls ∨ c = .doorFault ls

theorem ofLeaf_alone (h : c.ofLeaf l) : (∀ x, c.readsLeaf x = decide (l = x)) ∧
    (∀ ch, c.readsChannel ch = false) ∧ (∀ g, c.readsGauge g = false) ∧ c ≠ .motionUnknown := by
  rcases h with rfl | rfl | rfl | rfl
  all_goals exact ⟨oneLeaf_names l, fun _ => rfl, fun _ => rfl, nofun⟩

/-- What a condition that reads one thing reads. -/
theorem readsOneThing_cases {s : State} (h : s.readsOneThing c) : (∃ ch, c.readsChannel ch = true) ∨
    (∃ g, c.readsGauge g = true) ∨ (∃ l, c.ofLeaf l ∧ s.dm.conds[l] = some s.dm.leaves[l].conds) ∨
    c.readsSupply = true ∨ c = .motionUnknown := by
  cases c
  case switchActive x | channelFault x | channelLost x => exact .inl ⟨x, decide_eq_true rfl⟩
  case valueBelow x _ _ | valueAbove x _ _ => exact .inr (.inl ⟨x, decide_eq_true rfl⟩)
  case doorNotSecure ls =>
    obtain ⟨l, rfl, conds⟩ := h
    exact .inr (.inr (.inl ⟨l, .inl rfl, conds⟩))
  case doorReleased ls =>
    obtain ⟨l, rfl, conds⟩ := h
    exact .inr (.inr (.inl ⟨l, .inr (.inl rfl), conds⟩))
  case doorObstructed ls =>
    obtain ⟨l, rfl, conds⟩ := h
    exact .inr (.inr (.inl ⟨l, .inr (.inr (.inl rfl)), conds⟩))
  case doorFault ls =>
    obtain ⟨l, rfl, conds⟩ := h
    exact .inr (.inr (.inl ⟨l, .inr (.inr (.inr rfl)), conds⟩))
  case supplyLow | supplyHigh => exact .inr (.inr (.inr (.inl rfl)))
  case motionUnknown => exact .inr (.inr (.inr (.inr rfl)))

/-! ## What a condition makes of a change, by its class -/

section
variable {s t : State} {old : Bool} {v : View}

theorem condTakes_channel (h : c.readsChannel ch = true) (view : v.chan[ch] = t.ci.eff ch) :
    s.condTakes t c old = if s.ci.eff ch ≠ t.ci.eff ch then some (c.value v old) else none := by
  cases c
  case switchActive x =>
    obtain rfl : x = ch := of_decide_eq_true h
    dsimp only [State.condTakes, Condition.value, asWired]
    rw [view]
    refine if_congr Iff.rfl (congrArg some ?_) rfl
    by_cases wired : x.val < 24 <;> simp [wired, item?]
  case channelFault x =>
    obtain rfl : x = ch := of_decide_eq_true h
    dsimp only [State.condTakes, Condition.value]
    rw [view]
  case channelLost x =>
    obtain rfl : x = ch := of_decide_eq_true h
    dsimp only [State.condTakes, Condition.value]
    rw [view]
  all_goals exact absurd h nofun

theorem condTakes_gauge (h : c.readsGauge g = true) (view : v.display[g] = t.ge[g].display) :
    s.condTakes t c old = if s.ge[g].display ≠ t.ge[g].display then some (c.value v old) else none := by
  cases c
  case valueBelow x limit hyst =>
    obtain rfl : x = g := of_decide_eq_true h
    dsimp only [State.condTakes, Condition.value]
    rw [view]
    refine if_congr Iff.rfl (congrArg some ?_) rfl
    cases t.ge[x].display with
    | none => rfl
    | some y =>
      cases old with
      | false => simp
      | true =>
        simp
        omega
  case valueAbove x limit hyst =>
    obtain rfl : x = g := of_decide_eq_true h
    dsimp only [State.condTakes, Condition.value]
    rw [view]
    refine if_congr Iff.rfl (congrArg some ?_) rfl
    cases t.ge[x].display with
    | none => rfl
    | some y =>
      cases old with
      | false => simp
      | true =>
        simp
        omega
  all_goals exact absurd h nofun

theorem oneLeaf_exists (l : Fin 8) (p : Fin 8 → Prop) :
    (∃ x : Fin 8, (BitVec.ofNat 8 (2 ^ l.val)).getLsbD x.val = true ∧ p x) ↔ p l := by
  simp only [oneLeaf_names, decide_eq_true_eq, exists_eq_left']

theorem anyLeaf_one (l : Fin 8) (door : Vector DoorCond 8) (p : DoorCond → Bool) :
    anyLeaf (BitVec.ofNat 8 (2 ^ l.val)) door p = p door[l] := by
  rw [Bool.eq_iff_iff, anyLeaf, List.any_eq_true]
  simp only [List.mem_finRange, true_and, inLeafSet, Bool.and_eq_true]
  exact oneLeaf_exists l fun x => p door[x] = true

theorem condTakes_leaf (h : c.ofLeaf l) (view : v.door[l] = t.dm.leaves[l].conds) :
    s.condTakes t c old = if t.dm.leaves[l].conds ≠ s.dm.leaves[l].conds then some (c.value v old) else none := by
  have changed := oneLeaf_exists l fun x => t.dm.leaves[x].conds ≠ s.dm.leaves[x].conds
  have holds (p : DoorCond → Bool) := oneLeaf_exists l fun x => p t.dm.leaves[x].conds = true
  rcases h with rfl | rfl | rfl | rfl
  all_goals
    dsimp only [State.condTakes, Condition.value]
    refine if_congr changed (congrArg some ?_) rfl
    rw [anyLeaf_one, view]
    rw [Bool.eq_iff_iff, decide_eq_true_eq]
    exact holds _

theorem condTakes_supply (h : c.readsSupply = true) (same : t.ci.supply = s.ci.supply) :
    s.condTakes t c old = none := by
  cases c
  case supplyLow | supplyHigh => exact if_neg fun changed => changed same.symm
  all_goals exact absurd h nofun

end

end

end Sys2Proof.Machine
end

section
/-! PROOFS. A hand-over at the warnings as the rules have it (R95 to R99, R109). -/

namespace Sys2Proof.Machine

set_option Elab.async false

section
variable {s t u b : State} {o : HandOver} {w : Fin 64} {d : WarnDef} {order : List HandPart} {all moved : Bool}
  {faults : List (FaultSource × Bool)}

/-! ## The definitions stand -/

theorem actOn_defs (x : Fin 64) (e : WarnDef) (q : Bool) (s : State) : (actOn x e q s).wm.defs = s.wm.defs := by
  obtain ⟨y, other⟩ := exists_ne x
  exact (actOn_unasked (w := y) (d := e) other.symm e q s).defs

theorem evaluate_defs (reads : Condition → Bool) (motion : Bool) (s : State) :
    (evaluate reads motion s).wm.defs = s.wm.defs := by
  unfold evaluate
  split
  · rfl
  · split
    · refine forEach_induct (fun t => t.wm.defs = s.wm.defs) _ _ rfl fun x t h => ?_
      unfold askWarning
      split
      · split
        · rwa [actOn_defs]
        · exact h
      · exact h
    · rfl

theorem handedView_defs (reads : Condition → Bool) (motion : Bool) (f : View → View) (s : State) :
    (evaluate reads motion (changeView f s)).wm.defs = s.wm.defs := by
  rw [evaluate_defs]
  unfold changeView
  split <;> rfl

theorem handPart_defs {p : HandPart} {ps : List HandPart} (h : u.Awaits (p :: ps) t) (live : u.live) :
    (o.run p t).wm.defs = t.wm.defs := by
  cases p with
  | gauge g =>
    obtain ⟨x, only, -, e⟩ := gaugeTakes_hands (o := o) (h.gauge g List.mem_cons_self) h.only.ci (h.live live)
    show (o.gaugeTakes g t).wm.defs = _
    rw [e, ← only.wm]
    split
    · exact handedView_defs (·.readsGauge g) false (fun v => { v with display := vset v.display g x.ge[g].display }) x
    · rfl
  | leaf i =>
    rw [(h.leaf_run (o := o) live).1]
    split
    · obtain ⟨post, e, aside⟩ := concludeLeaf_units i (u.handedRun o.chs i) t
      rw [e]
      refine inFreeOrder_induct (fun x => x.wm.defs = t.wm.defs) (congrArg WarnMgr.defs (leafConcluded_only i _ t).wm)
        fun v hv x k => ?_
      rcases List.mem_cons.1 hv with here | other
      · obtain ⟨-, rfl⟩ := Prod.mk.inj here
        exact (handedView_defs (·.readsLeaf i) false (fun v => { v with door := vset v.door i x.dm.leaves[i].conds }) _).trans k
      · rwa [(aside v other).wm]
    · rfl
  | warnings => exact evaluate_defs (fun c => o.chs.any c.readsChannel) false t
  | faults => exact congrArg WarnMgr.defs (handPresences_only t _).wm
  | motion =>
    refine inFreeOrder_induct (fun x => x.wm.defs = t.wm.defs) rfl fun v hv x k => ?_
    simp only [List.mem_cons, Prod.mk.injEq, List.not_mem_nil, or_false] at hv
    rcases hv with ⟨-, rfl⟩ | ⟨-, rfl⟩
    · exact (handedView_defs (fun c => decide (c = .motionUnknown)) true (fun v => { v with motion := x.ci.motion }) x).trans k
    · unfold sessionTakesMotion
      split
      · exact k
      · rwa [(endSession_only x _).wm]

/-! ## A warning over the whole order -/

/-- A warning that no part asks. -/
theorem runAll_unasked (awaits : u.Awaits order b) (nodup : order.Nodup) (live : u.live) (hands : HandsPresences o.faults)
    (def? : b.wm.defs[w] = some d) (off : ∀ p ∈ order, ¬ o.asks u d p) : b.Unasked w d (o.runAll order b) := by
  refine (runAll_induct (o := o) (fun rest t => rest ⊆ order ∧ u.Awaits rest t ∧ b.Unasked w d t)
    (fun p ps t fresh ⟨within, waits, rests⟩ => ?_) order b nodup ⟨List.Subset.refl _, awaits, .refl w d b⟩).2.2
  have silent := off p (within List.mem_cons_self)
  exact ⟨fun q hq => within (List.mem_cons_of_mem _ hq), waits.turn fresh live,
    rests.trans (handPart_unasked waits live hands (by rw [rests.defs, def?]) silent)⟩

/-- A warning that has been asked once, by a part that found the view with the same channels and, where it is gated, the same motion
state. -/
def State.AskedOnce (b : State) (o : HandOver) (u : State) (w : Fin 64) (d : WarnDef) (p : HandPart) (v : View) (t : State) : Prop :=
  ∃ v' : View, v'.chan = v.chan ∧ (d.gating ≠ .always → v'.motion = v.motion) ∧
    State.Acted w d (b.wm.inst[w].updated d (o.reads p) (o.hands u p v'))
      ((b.wm.inst[w].updated d (o.reads p) (o.hands u p v')).qualified d (o.hands u p v')) t

/-- A warning that one part asks. -/
theorem runAll_asks {p : HandPart} {v : View} (awaits : u.Awaits order b) (nodup : order.Nodup) (run : u.sc.opState = .run)
    (hands : HandsPresences o.faults) (view : b.wm.view = some v) (def? : b.wm.defs[w] = some d) (mem : p ∈ order)
    (on : o.asks u d p) (alone : ∀ q ∈ order, q ≠ p → ¬ o.asks u d q) : b.AskedOnce o u w d p v (o.runAll order b) := by
  have live : u.live := .inl run
  have turn (q : HandPart) (ps : List HandPart) (t : State) (fresh : q ∉ ps) (within : q ∈ order) (waits : u.Awaits (q :: ps) t)
      (defs : t.wm.defs[w] = some d) (stands : if p ∈ q :: ps then b.Unasked w d t else b.AskedOnce o u w d p v t) :
      if p ∈ ps then b.Unasked w d (o.run q t) else b.AskedOnce o u w d p v (o.run q t) := by
    by_cases here : q = p
    · subst here
      rw [if_pos List.mem_cons_self] at stands
      rw [if_neg fresh]
      obtain ⟨v', view', chan, motion⟩ := stands.view view
      have asks := handPart_asks waits run view' defs on
      rw [stands.inst] at asks
      exact ⟨v', chan, motion, asks⟩
    · have rests := handPart_unasked (w := w) waits live hands defs (alone q within here)
      have same : p ∈ q :: ps ↔ p ∈ ps := by simp [Ne.symm here]
      simp only [same] at stands
      split at stands
      next mem' =>
        rw [if_pos mem']
        exact stands.trans rests
      next gone =>
        rw [if_neg gone]
        obtain ⟨v', chan, motion, acted⟩ := stands
        exact ⟨v', chan, motion, acted.rests rests⟩
  have done := runAll_induct (o := o)
    (fun rest t => rest ⊆ order ∧ u.Awaits rest t ∧ t.wm.defs[w] = some d ∧
      if p ∈ rest then b.Unasked w d t else b.AskedOnce o u w d p v t)
    (fun q ps t fresh ⟨within, waits, defs, stands⟩ => ⟨fun x hx => within (List.mem_cons_of_mem _ hx), waits.turn fresh live,
      by rw [handPart_defs waits live]; exact defs, turn q ps t fresh (within List.mem_cons_self) waits defs stands⟩)
    order b nodup ⟨List.Subset.refl _, awaits, def?, by rw [if_pos mem]; exact .refl w d b⟩
  exact (if_neg List.not_mem_nil).mp done.2.2.2

end

end Sys2Proof.Machine
end

section
/-! PROOFS. A hand-over at the warnings as the rules have it (R95 to R99, R109). -/

namespace Sys2Proof.Machine

set_option Elab.async false

section
variable {s t u : State} {o : HandOver} {w : Fin 64} {d : WarnDef} {all moved : Bool} {faults : List (FaultSource × Bool)}

/-! ## The one part that asks -/

theorem asks_channel {ch : Fin 40} (h : d.cond.readsChannel ch = true) :
    (∀ p, p ≠ .motion → o.asks u d p → p = .warnings) ∧ (o.asks u d .warnings ↔ ch ∈ o.chs) := by
  obtain ⟨alone, gauge, leaf, -⟩ := readsChannel_alone h
  refine ⟨fun p other on => ?_, ?_⟩
  · cases p with
    | gauge g => exact absurd ((gauge g).symm.trans on.1) nofun
    | leaf i => exact absurd ((leaf i).symm.trans on.1) nofun
    | warnings => rfl
    | faults => exact on.elim
    | motion => exact absurd rfl other
  · show o.chs.any d.cond.readsChannel = true ↔ _
    simp only [List.any_eq_true, alone, decide_eq_true_eq, exists_eq_right']

theorem asks_gauge {g : Fin 8} (h : d.cond.readsGauge g = true) :
    (∀ p, p ≠ .motion → o.asks u d p → p = .gauge g) ∧ (o.asks u d (.gauge g) ↔ o.display u g ≠ u.ge[g].display) := by
  obtain ⟨alone, channel, leaf, -⟩ := readsGauge_alone h
  refine ⟨fun p other on => ?_, and_iff_right h⟩
  cases p with
  | gauge x => rw [of_decide_eq_true ((alone x).symm.trans on.1)]
  | leaf i => exact absurd ((leaf i).symm.trans on.1) nofun
  | warnings =>
    obtain ⟨ch, -, reads⟩ := List.any_eq_true.1 on
    exact absurd ((channel ch).symm.trans reads) nofun
  | faults => exact on.elim
  | motion => exact absurd rfl other

theorem asks_leaf {l : Fin 8} (h : d.cond.ofLeaf l) (known : u.dm.conds[l] = some u.dm.leaves[l].conds) :
    (∀ p, p ≠ .motion → o.asks u d p → p = .leaf l) ∧ (o.asks u d (.leaf l) ↔ o.conds u l ≠ u.dm.leaves[l].conds) := by
  obtain ⟨alone, channel, gauge, -⟩ := ofLeaf_alone h
  refine ⟨fun p other on => ?_, ⟨fun ⟨_, _, changed⟩ same => ?_, fun changed => ⟨?_, ?_, fun same => ?_⟩⟩⟩
  · cases p with
    | gauge g => exact absurd ((gauge g).symm.trans on.1) nofun
    | leaf i => rw [of_decide_eq_true ((alone i).symm.trans on.1)]
    | warnings =>
      obtain ⟨ch, -, reads⟩ := List.any_eq_true.1 on
      exact absurd ((channel ch).symm.trans reads) nofun
    | faults => exact on.elim
    | motion => exact absurd rfl other
  · exact changed (by rw [known, same])
  · rw [alone, decide_eq_true rfl]
  · by_contra off
    exact changed (if_neg off)
  · rw [known] at same
    exact changed (Option.some.inj same).symm

/-- A condition on the supply or the motion state is asked by no part but that of the motion state. -/
theorem asks_none (h : d.cond.readsSupply = true ∨ d.cond = .motionUnknown) (p : HandPart) (other : p ≠ .motion) :
    ¬ o.asks u d p := by
  have silent : (∀ ch, d.cond.readsChannel ch = false) ∧ (∀ g, d.cond.readsGauge g = false) ∧
      ∀ l, d.cond.readsLeaf l = false := by
    cases c : d.cond
    case supplyLow | supplyHigh | motionUnknown => exact ⟨fun _ => rfl, fun _ => rfl, fun _ => rfl⟩
    all_goals
      rw [c] at h
      exact absurd h (by simp [Condition.readsSupply])
  obtain ⟨channel, gauge, leaf⟩ := silent
  intro on
  cases p with
  | gauge g => exact absurd ((gauge g).symm.trans on.1) nofun
  | leaf i => exact absurd ((leaf i).symm.trans on.1) nofun
  | warnings =>
    obtain ⟨ch, -, reads⟩ := List.any_eq_true.1 on
    exact absurd ((channel ch).symm.trans reads) nofun
  | faults => exact on
  | motion => exact other rfl

/-- A part that asks has something to do. -/
theorem asks_active {p : HandPart} (on : o.asks u d p) (def? : u.wm.defs[w] = some d) (run : u.sc.opState = .run)
    (motion : p = .motion → moved = true) : o.active moved u p = true := by
  cases p with
  | gauge g =>
    rw [← Bool.not_eq_false]
    exact fun idle => on.2 (congrArg Gauge.display (HandOver.shows_idle u.ci idle rfl))
  | leaf i => exact List.any_eq_true.2 ⟨i, List.mem_finRange i, on.2.1⟩
  | warnings =>
    show (u.warnReads o.chs && decide u.inRun) = true
    rw [decide_eq_true (show u.inRun from run), Bool.and_true]
    exact List.any_eq_true.2 ⟨w, List.mem_finRange w, by simp only [def?]; exact on⟩
  | faults => exact on.elim
  | motion => exact motion rfl

/-! ## The hand-over and its warnings -/

/-- What the blocks show after the hand-over is what they were to show. -/
structure State.Given (s u t : State) (o : HandOver) : Prop where
  ci      : t.ci = u.ci
  supply  : u.ci.supply = s.ci.supply
  chs     : ∀ ch, ch ∈ o.chs ↔ s.ci.eff ch ≠ u.ci.eff ch
  display : ∀ g : Fin 8, t.ge[g].display = o.display u g
  conds   : ∀ l : Fin 8, t.dm.leaves[l].conds = o.conds u l
  ge      : u.ge = s.ge
  dm      : u.dm = s.dm

theorem State.Hands.given (h : s.Hands u all moved) (hands : HandsPresences faults) :
    State.Given s u (u.handed s.ci all moved faults) (u.handOver s.ci all faults) where
  ci := (handed_only u s.ci all moved faults).ci
  supply := h.supply
  chs _ := mem_changedChannels
  display g := by
    rw [(h.gauge (faults := faults) g).shows.display, HandOver.display, h.only.ge]
  conds l := by
    have taken := h.leaf hands l
    unfold HandOver.conds
    cases named : u.dm.leaves[l].names (u.handOver s.ci all faults).chs with
    | false => rw [(taken.rests named).1, if_neg nofun]
    | true => rw [(taken.leaf named).1, if_pos rfl]
  ge := h.only.ge
  dm := h.only.dm

/-- What a definition reads besides the motion state has not been handed, or one part hands it, on a view whose channels are current. -/
def State.HandedOnce (s u t : State) (o : HandOver) (d : WarnDef) (old : Bool) (v : View) : Prop :=
  (s.condTakes t d.cond old = none ∧ ∀ p, p ≠ .motion → ¬ o.asks u d p) ∨
    ∃ p, p ≠ .motion ∧ o.asks u d p ∧ (∀ q, q ≠ .motion → q ≠ p → ¬ o.asks u d q) ∧ o.reads p d.cond = true ∧
      ∀ v' : View, v'.chan = v.chan → (o.hands u p v').motion = v'.motion ∧
        s.condTakes t d.cond old = some (d.cond.value (o.hands u p v') old)

theorem State.Given.once (k : State.Given s u t o) (one : s.readsOneThing d.cond) (cond : d.cond ≠ .motionUnknown)
    (old : Bool) {v : View} (view : ∀ ch ∈ o.chs, v.chan[ch] = u.ci.eff ch) :
    s.HandedOnce u t o d old v := by
  obtain ⟨ci, supply, chs, display, conds, ge, dm⟩ := k
  -- one part is all that can ask, and it asks where the thing has changed
  have single (p : HandPart) (ne : p ≠ .motion) (alone : ∀ q, q ≠ .motion → o.asks u d q → q = p)
      (still : ¬ o.asks u d p → s.condTakes t d.cond old = none)
      (handed : o.asks u d p → o.reads p d.cond = true ∧ ∀ v' : View, v'.chan = v.chan →
        (o.hands u p v').motion = v'.motion ∧ s.condTakes t d.cond old = some (d.cond.value (o.hands u p v') old)) :
      s.HandedOnce u t o d old v := by
    by_cases on : o.asks u d p
    · exact .inr ⟨p, ne, on, fun q hq other onQ => other (alone q hq onQ), handed on⟩
    · exact .inl ⟨still on, fun q hq onQ => on (alone q hq onQ ▸ onQ)⟩
  rcases readsOneThing_cases one with ⟨ch, reads⟩ | ⟨g, reads⟩ | ⟨l, reads, known⟩ | reads | reads
  · obtain ⟨alone, on⟩ := asks_channel (o := o) (u := u) reads
    refine single .warnings nofun alone (fun off => ?_) fun handed => ⟨handed, fun v' same => ⟨rfl, ?_⟩⟩
    · rw [on, chs] at off
      rw [condTakes_channel (v := { v with chan := tab fun x => t.ci.eff x }) reads (tab_get _ ch), ci, if_neg off]
    · rw [on] at handed
      have changed := (chs ch).1 handed
      rw [condTakes_channel (v := v') reads (by rw [same, view ch handed, ci]), ci, if_pos changed]
      rfl
  · obtain ⟨alone, on⟩ := asks_gauge (o := o) (u := u) reads
    have takes (v' : View) : s.condTakes t d.cond old =
        if s.ge[g].display ≠ o.display u g then some (d.cond.value (o.hands u (.gauge g) v') old) else none := by
      rw [← display g]
      exact condTakes_gauge reads (by rw [display g]; exact vset_self _ _ _)
    refine single (.gauge g) nofun alone (fun off => ?_) fun handed => ⟨reads, fun v' same => ⟨rfl, ?_⟩⟩
    · rw [on, ge] at off
      rw [takes v, if_neg fun changed => off (Ne.symm changed)]
    · rw [on, ge] at handed
      rw [takes v', if_pos (Ne.symm handed)]
  · obtain ⟨alone, on⟩ := asks_leaf (o := o) (u := u) reads (by rw [dm]; exact known)
    have takes (v' : View) : s.condTakes t d.cond old =
        if o.conds u l ≠ s.dm.leaves[l].conds then some (d.cond.value (o.hands u (.leaf l) v') old) else none := by
      rw [← conds l]
      exact condTakes_leaf reads (by rw [conds l]; exact vset_self _ _ _)
    refine single (.leaf l) nofun alone (fun off => ?_) fun handed => ⟨?_, fun v' same => ⟨rfl, ?_⟩⟩
    · rw [on, dm] at off
      rw [takes v, if_neg off]
    · exact handed.1
    · rw [on, dm] at handed
      rw [takes v', if_pos handed]
  · exact .inl ⟨condTakes_supply reads (by rw [ci, supply]), asks_none (.inl reads)⟩
  · exact absurd reads cond

end

end Sys2Proof.Machine
end

section
/-! PROOFS. A hand-over at the warnings as the rules have it (R95 to R99, R109). -/

namespace Sys2Proof.Machine

set_option Elab.async false

section
variable {s t u : State} {w : Fin 64} {d : WarnDef} {all moved : Bool} {faults : List (FaultSource × Bool)} {v : View}

/-- The view with the changed channels taken. -/
def View.takes (v : View) (chs : List (Fin 40)) (c : Interp) : View :=
  { v with chan := tab fun ch => if ch ∈ chs then c.eff ch else v.chan[ch] }

/-- A hand-over in RUN at one warning: it is not asked, or one part asks it. -/
theorem State.Hands.warning (h : s.Hands u all moved) (hands : HandsPresences faults) (run : s.sc.opState = .run)
    (def? : s.wm.defs[w] = some d) (view : s.wm.view = some v) :
    let o := u.handOver s.ci all faults
    let t := u.handed s.ci all moved faults
    ((∀ p, (p = .motion → moved = true) → ¬ o.asks u d p) → t.wm.inst[w] = s.wm.inst[w]) ∧
    ∀ p, (p = .motion → moved = true) → o.asks u d p → (∀ q, (q = .motion → moved = true) → q ≠ p → ¬ o.asks u d q) →
      s.AskedOnce o u w d p (v.takes o.chs u.ci) t := by
  intro o t
  have wm : u.wm = s.wm := h.only.wm
  have runU : u.sc.opState = .run := by rw [h.sc, run]
  set b : State := { viewChannels o.chs u with freeCount := (viewChannels o.chs u).freeCount + 1 } with b_eq
  have only : Only handParts u b := (viewChannels_only u o.chs).mono.trans (.free (by decide))
  have taken : viewChannels o.chs u = u.modWm fun m => { m with view := m.view.map (·.takes o.chs u.ci) } :=
    changeView_run runU
  have inst : b.wm.inst = s.wm.inst := by
    rw [← wm, b_eq, taken]
    rfl
  have defs : b.wm.defs = s.wm.defs := by
    rw [← wm, b_eq, taken]
    rfl
  have viewB : b.wm.view = some (v.takes o.chs u.ci) := by
    rw [b_eq, taken]
    show u.wm.view.map _ = _
    rw [wm, view]
    rfl
  have awaits (rest : List HandPart) : u.Awaits rest b := by
    refine ⟨only, fun g _ => ?_, fun i _ => ?_⟩
    · have ge : b.ge = u.ge := (viewChannels_only u o.chs).ge
      rw [ge]
      exact .refl _
    · have dm : b.dm = u.dm := (viewChannels_only u o.chs).dm
      rw [dm]
      exact ⟨rfl, rfl, rfl⟩
  obtain ⟨order, nodup, active, e⟩ := handOver_order o moved u (viewChannels o.chs u)
  have eq : t = o.runAll order b := (handed_eq u s.ci all moved faults).trans e
  have motionActive (p : HandPart) (mem : p ∈ order) : p = .motion → moved = true := by
    rintro rfl
    exact (active .motion).1 mem
  refine ⟨fun off => ?_, fun p motion on alone => ?_⟩
  · have rests := runAll_unasked (o := o) (w := w) (d := d) (awaits order) nodup (.inl runU) hands (by rw [defs, def?])
      fun p mem => off p (motionActive p mem)
    rw [eq, rests.inst, inst]
  · have asked := runAll_asks (o := o) (w := w) (d := d) (awaits order) nodup runU hands viewB (by rw [defs, def?])
      ((active p).2 (asks_active on (by rw [wm, def?]) runU motion)) on fun q mem => alone q (motionActive q mem)
    unfold State.AskedOnce at asked ⊢
    rw [inst, ← eq] at asked
    exact asked

theorem State.AskedOnce.acted {o : HandOver} {p : HandPart} {c : Bool} {m : MotionState} (h : s.AskedOnce o u w d p v t)
    (cond : ∀ v' : View, v'.chan = v.chan →
      (if o.reads p d.cond then d.cond.value (o.hands u p v') s.wm.inst[w].cond else s.wm.inst[w].cond) = c)
    (motion : ∀ v' : View, (d.gating ≠ .always → v'.motion = v.motion) →
      d.gating.holds (o.hands u p v').motion = d.gating.holds m) :
    State.Acted w d { s.wm.inst[w] with cond := c } (c && d.gating.holds m) t := by
  obtain ⟨v', chan, same, acted⟩ := h
  have updated : s.wm.inst[w].updated d (o.reads p) (o.hands u p v') = { s.wm.inst[w] with cond := c } := by
    rw [WarnInst.updated, cond v' chan]
  rw [updated, WarnInst.qualified, motion v' same] at acted
  exact acted

theorem holds_always (always : d.gating = .always) (m : MotionState) : d.gating.holds m = true := by
  rw [always]
  rfl

/-- A warning of a hand-over: it stays, with nothing it reads handed, or it has been asked on its new condition and motion state. -/
def State.WarnAsked (s t : State) (w : Fin 64) (d : WarnDef) (v : View) : Prop :=
  let now := s.condTakes t d.cond s.wm.inst[w].cond
  let changed := d.gating ≠ .always ∧ s.ci.motion ≠ t.ci.motion
  let cond := now.getD s.wm.inst[w].cond
  let motion := if s.ci.motion = t.ci.motion then v.motion else t.ci.motion
  (now = none ∧ ¬ changed ∧ t.wm.inst[w] = s.wm.inst[w]) ∨
    ((now.isSome ∨ changed) ∧ State.Acted w d { s.wm.inst[w] with cond } (cond && d.gating.holds motion) t)

theorem warnTakes_of (asked : ∀ (d : WarnDef) (v : View), s.wm.defs[w] = some d → s.wm.view = some v → s.readsOneThing d.cond →
    (s.condTakes t d.cond s.wm.inst[w].cond = none ∨ d.cond = .motionUnknown ∨
      ¬ (d.gating ≠ .always ∧ s.ci.motion ≠ t.ci.motion)) → s.WarnAsked t w d v) : s.warnTakes t w := by
  intro d v def? view one x y now changed once cond motion gated
  have gated_eq : gated = d.gating.holds motion := by
    simp only [gated]
    cases d.gating <;> rfl
  rcases asked d v def? view one once with ⟨none, still, same⟩ | ⟨on, acted⟩
  · have none' : now = Option.none := none
    exact ⟨fun _ _ => same, fun on => absurd on (by rw [none']; exact fun k => k.elim nofun still)⟩
  · have acted' : State.Acted w d { x with cond } (cond && gated) t := by
      rw [gated_eq]
      exact acted
    refine ⟨fun none still => ?_, fun _ => ⟨acted'.inst, acted'.enters, acted'.leaves⟩⟩
    have on' : now.isSome ∨ changed := on
    rw [none] at on'
    exact absurd on' fun k => k.elim nofun still

/-- A hand-over at the warnings as the rules have it. -/
theorem State.Hands.warnTakes (h : s.Hands u all moved) (hands : HandsPresences faults) (run : s.sc.opState = .run)
    (w : Fin 64) : s.warnTakes (u.handed s.ci all moved faults) w := by
  refine warnTakes_of fun d v def? view one once => ?_
  have given : State.Given s u (u.handed s.ci all moved faults) (u.handOver s.ci all faults) := h.given hands
  obtain ⟨rests, asked⟩ := h.warning hands run def? view
  set t := u.handed s.ci all moved faults with t_eq
  set o := u.handOver s.ci all faults with o_eq
  have ci : t.ci = u.ci := given.ci
  have motionMoved : moved = true ↔ s.ci.motion ≠ t.ci.motion := by rw [h.moved, ci]
  unfold State.WarnAsked
  extract_lets now changed cond motion
  -- the motion state as the part of the motion state hands it
  have handsMotion (m : s.ci.motion ≠ t.ci.motion) (v' : View) :
      d.gating.holds (o.hands u .motion v').motion = d.gating.holds motion := by
    have same : motion = t.ci.motion := if_neg m
    rw [same, ci]
    rfl
  by_cases unknown : d.cond = .motionUnknown
  · have silent : ∀ q, q ≠ .motion → ¬ o.asks u d q := asks_none (.inr unknown)
    have now_eq : now = if s.ci.motion ≠ t.ci.motion then some (decide (t.ci.motion = .unknown)) else none := by
      show s.condTakes t d.cond s.wm.inst[w].cond = _
      rw [unknown]
      rfl
    by_cases m : s.ci.motion = t.ci.motion
    · refine .inl ⟨now_eq.trans (if_neg (not_not_intro m)), fun k => k.2 m, rests fun p motion on => ?_⟩
      exact silent p (fun e => motionMoved.1 (motion e) m) on
    · refine .inr ⟨.inl (by rw [now_eq, if_pos m]; rfl), ?_⟩
      have once := asked .motion (fun _ => motionMoved.2 m) (readsMotion_iff.2 (.inl unknown)) fun q _ other => silent q other
      refine once.acted (fun v' _ => ?_) fun v' _ => handsMotion m v'
      have reads : o.reads .motion d.cond = true := decide_eq_true unknown
      have value : cond = decide (t.ci.motion = .unknown) := by
        show now.getD s.wm.inst[w].cond = _
        rw [now_eq, if_pos m]
        rfl
      rw [if_pos reads, value, unknown, ci]
      rfl
  · have fresh : ∀ ch ∈ o.chs, (v.takes o.chs u.ci).chan[ch] = u.ci.eff ch := fun ch mem =>
      (tab_get _ ch).trans (if_pos mem)
    rcases given.once one unknown s.wm.inst[w].cond fresh with ⟨none, silent⟩ | ⟨p, notMotion, on, alone, reads, value⟩
    · have cond_eq : cond = s.wm.inst[w].cond := congrArg (Option.getD · s.wm.inst[w].cond) none
      by_cases c : changed
      · obtain ⟨gate, m⟩ := c
        refine .inr ⟨.inr ⟨gate, m⟩, ?_⟩
        have once := asked .motion (fun _ => motionMoved.2 m) (readsMotion_iff.2 (.inr gate)) fun q _ other => silent q other
        refine once.acted (fun v' _ => ?_) fun v' _ => handsMotion m v'
        have off : o.reads .motion d.cond = false := decide_eq_false unknown
        rw [off, cond_eq, if_neg nofun]
      · refine .inl ⟨none, c, rests fun p motion on => ?_⟩
        by_cases isMotion : p = .motion
        · subst isMotion
          exact c ⟨(readsMotion_iff.1 on).resolve_left unknown, motionMoved.1 (motion rfl)⟩
        · exact silent p isMotion on
    · have some_now (v' : View) (chan : v'.chan = (v.takes o.chs u.ci).chan) :
          now = some (d.cond.value (o.hands u p v') s.wm.inst[w].cond) := (value v' chan).2
      have isSome : now.isSome := by rw [some_now _ rfl]; rfl
      have still : ¬ changed := by
        refine (once.resolve_left fun none => ?_).resolve_left unknown
        have absent : now = Option.none := none
        rw [absent] at isSome
        exact absurd isSome nofun
      refine .inr ⟨.inl isSome, ?_⟩
      have once := asked p (fun e => absurd e notMotion) on fun q motion other onQ => by
        by_cases isMotion : q = .motion
        · subst isMotion
          exact still ⟨(readsMotion_iff.1 onQ).resolve_left unknown, motionMoved.1 (motion rfl)⟩
        · exact alone q isMotion other onQ
      refine once.acted (fun v' chan => ?_) fun v' same => ?_
      · rw [if_pos reads]
        show _ = now.getD s.wm.inst[w].cond
        rw [some_now v' chan]
        rfl
      · by_cases gate : d.gating = .always
        · rw [holds_always gate, holds_always gate]
        · have stays : s.ci.motion = t.ci.motion := by
            by_contra m
            exact still ⟨gate, m⟩
          have motion_eq : motion = v.motion := if_pos stays
          have handed : (o.hands u p v').motion = v'.motion := by
            cases p with
            | motion => exact absurd rfl notMotion
            | gauge _ | leaf _ | warnings | faults => rfl
          rw [handed, motion_eq, same gate]
          rfl

end

end Sys2Proof.Machine
end

section
/-! PROOFS. The motion state at the session (R67, R182, R184, R185): the reports of a hand-over in their order, and the tests. -/

namespace Sys2Proof.Machine

set_option Elab.async false

section
variable {s t u : State}

/-! ## Tests in force (R183) -/

theorem testsInForce_congr (ge : ∀ g : Fin 8, t.ge[g].testing = s.ge[g].testing) (overrides : t.ao.overrides = s.ao.overrides)
    (chime : t.ao.chimeTest = s.ao.chimeTest) : t.testsInForce = s.testsInForce := by
  unfold State.testsInForce
  simp only [ge, overrides, chime]

theorem testsInForce_same (ge : t.ge = s.ge) (ao : t.ao = s.ao) : t.testsInForce = s.testsInForce :=
  testsInForce_congr (fun _ => by rw [ge]) (by rw [ao]) (by rw [ao])

theorem takeList_tests (s : State) : (takeList s).testsInForce = s.testsInForce := by
  have ge : (takeList s).ge = s.ge := (takeList_only s).ge
  refine testsInForce_congr (fun _ => by rw [ge]) ?_ ?_
  all_goals
    unfold takeList
    rw [deriveChime_ao]
    rfl

theorem endsTest_testing (x : Gauge) : x.endsTest.testing = false := by
  unfold Gauge.endsTest
  split
  · rfl
  next notTest =>
    split
    · simp [Gauge.testing, Gauge.leaveTest, notTest]
    next off => exact Bool.not_eq_true _ ▸ off

/-- Tests end at every block, for a cause that leaves the gauges powered. -/
theorem endTests_done {c : EndCause} (powered : c ≠ .stop) (s : State) : (endTests c s).testsInForce = false := by
  unfold endTests
  split
  next =>
    set r := report .testEnded 0 (val c.code) s with r_eq
    have blocks : endTestsAtBlocks c r = alertsEndTests (forEach endGaugeTest r) := by
      rw [endTestsAtBlocks, if_neg powered]
    have ge : (alertsEndTests (forEach endGaugeTest r)).ge = vmap Gauge.endsTest r.ge :=
      (alertsEndTests_only _).ge.trans (forEach_gauges r Gauge.endsTest fun g t _ =>
        ⟨endGaugeTest_ge g t, (endGaugeTest_only t g).ci⟩)
    obtain ⟨chime, overrides⟩ := alertsEndTests_untested (forEach endGaugeTest r)
    rw [blocks]
    unfold State.testsInForce
    simp [ge, endsTest_testing, chime, overrides]
  next no => exact Bool.not_eq_true _ ▸ no

theorem endTests_places {c : EndCause} (tests : s.testsInForce = true) :
    PlacesAmong [(.testEnded, 0, val c.code)] s.li (endTests c s).li := by
  unfold endTests
  rw [if_pos tests]
  exact (PlacesAmong.one s.li .testEnded 0 (val c.code)).andThen (endTestsAtBlocks_only _ _).placed

theorem endTests_idle {c : EndCause} (idle : s.testsInForce = false) : endTests c s = s :=
  if_neg (by rw [idle]; nofun)

/-! ## Before the motion state is handed -/

/-- The session stands as in `s`, and so do its tests, unless a STOP warning has ended them (R185). -/
structure State.SessionStands (s t : State) : Prop where
  service : t.sc.service = s.sc.service
  placed  : Places s.li t.li
  tests   : t.testsInForce = s.testsInForce ∨
    (t.testsInForce = false ∧ PlacesAmong [(.testEnded, 0, some 6)] s.li t.li)

theorem State.SessionStands.quiet (h : s.SessionStands t) (placed : Places t.li u.li) (service : u.sc.service = t.sc.service)
    (tests : u.testsInForce = t.testsInForce) : s.SessionStands u := by
  refine ⟨service.trans h.service, h.placed.trans placed, ?_⟩
  rw [tests]
  exact h.tests.imp_right fun ⟨idle, ended⟩ => ⟨idle, ended.andThen placed⟩

theorem sessionStands_work (s : State) : WarnWork s.SessionStands where
  quiet only h := h.quiet only.placed only.service (testsInForce_same only.ge only.ao)
  list t h := h.quiet (takeList_only t).placed (takeList_only t).service (takeList_tests t)
  stop t h := by
    have only := stopActivation_only t
    refine ⟨only.service.trans h.service, h.placed.trans only.placed, ?_⟩
    unfold stopActivation
    split
    · cases tests : t.testsInForce with
      | false =>
        rw [endTests_idle tests]
        exact h.tests
      | true => exact .inr ⟨endTests_done (c := .stopWarning) nofun t, (endTests_places (c := .stopWarning) tests).after h.placed⟩
    · exact h.tests

/-! ## After it -/

/-- The report of a motion state. -/
abbrev motionReport (m : MotionState) : Event × Nat × Option Word16 := (.motion, 0, some (BitVec.ofNat 16 m.code))

/-- The session has taken a new motion state (R182, R184). -/
structure State.SessionTook (s : State) (m : MotionState) (t : State) : Prop where
  motion : PlacesAmong [motionReport m] s.li t.li
  rests  : m = .standstill → t.sc.service = s.sc.service
  ends   : m ≠ .standstill → t.sc.service = false
  tests  : m ≠ .standstill → s.sc.service = true → t.testsInForce = false ∧
    PlacesAmong [motionReport m, (.serviceEnded, 0, some 2)] s.li t.li ∧
    (s.testsInForce = true → PlacesAmong [motionReport m, (.testEnded, 0, some 2), (.serviceEnded, 0, some 2)] s.li t.li ∨
      PlacesAmong [(.testEnded, 0, some 6), (.serviceEnded, 0, some 2)] s.li t.li)

theorem State.SessionTook.quiet {m : MotionState} (h : s.SessionTook m t) (placed : Places t.li u.li)
    (service : u.sc.service = t.sc.service) (tests : t.testsInForce = false → u.testsInForce = false) : s.SessionTook m u := by
  refine ⟨h.motion.andThen placed, fun still => service.trans (h.rests still), fun moves => service.trans (h.ends moves),
    fun moves open_ => ?_⟩
  obtain ⟨idle, ended, order⟩ := h.tests moves open_
  exact ⟨tests idle, ended.andThen placed, fun before => (order before).imp (·.andThen placed) (·.andThen placed)⟩

theorem sessionTook_work (s : State) (m : MotionState) : WarnWork (s.SessionTook m) where
  quiet only h := h.quiet only.placed only.service fun idle => (testsInForce_same only.ge only.ao).trans idle
  list t h := h.quiet (takeList_only t).placed (takeList_only t).service fun idle => (takeList_tests t).trans idle
  stop t h := by
    have only := stopActivation_only t
    refine h.quiet only.placed only.service fun idle => ?_
    unfold stopActivation
    split
    · rw [endTests_idle idle, idle]
    · exact idle

/-- The end of the session by the motion state. -/
theorem endSession_took {m : MotionState} (moves : m ≠ .standstill) (h : s.SessionStands t) (open_ : t.sc.service = true)
    (motion : PlacesAmong [motionReport m] s.li t.li) : s.SessionTook m (endSession .motion t) := by
  set x := (endTests .motion t).modSc fun c => { c with service := false } with x_eq
  have e : endSession .motion t = report .serviceEnded 0 (some 2) x := if_pos open_
  have ended : PlacesAmong [(.serviceEnded, 0, some 2)] x.li (endSession .motion t).li := by
    rw [e]
    exact .one _ _ _ _
  have placed : Places t.li x.li := (endTests_only t .motion).placed
  refine ⟨(motion.andThen placed).andThen (by rw [e]; exact (report_only x _ _ _).placed), fun still => absurd still moves,
    fun _ => by rw [e]; rfl, fun _ _ => ⟨?_, (motion.andThen placed).trans ended, fun before => ?_⟩⟩
  · rw [e]
    exact endTests_done (c := .motion) nofun t
  · cases tests : t.testsInForce with
    | true => exact .inl (motion.trans ((endTests_places (c := .motion) tests).trans ended))
    | false =>
      obtain ⟨-, stopped⟩ := h.tests.resolve_left fun same => by
        rw [tests, before] at same
        exact absurd same nofun
      exact .inr ((stopped.andThen placed).trans ended)

/-- The motion state is reported and handed to the session and the warnings. -/
theorem handMotion_took (h : s.SessionStands t) : s.SessionTook t.ci.motion (handMotion t) := by
  set r := report .motion 0 (val t.ci.motion.code) t with r_eq
  have stands : s.SessionStands { r with freeCount := r.freeCount + 1 } :=
    h.quiet (u := { r with freeCount := r.freeCount + 1 }) (report_only t _ _ _).placed rfl (testsInForce_same rfl rfl)
  have motion : PlacesAmong [motionReport t.ci.motion] s.li r.li := (PlacesAmong.one _ _ _ _).after h.placed
  have e : handMotion t = inFreeOrder [(decide t.inRun, handMotionToWm),
      (t.sc.service && decide (t.ci.motion ≠ .standstill), sessionTakesMotion)] r := rfl
  rw [e]
  refine inFreeOrder_at
    (fun x => s.SessionStands x ∧ PlacesAmong [motionReport t.ci.motion] s.li x.li ∧ x.ci = t.ci)
    (s.SessionTook t.ci.motion) [_] [] ⟨stands, motion, rfl⟩ (fun v hv x => ⟨?_, fun k => ?_⟩) (fun on x => ?_) (fun off x => ?_)
  · rintro ⟨k, placed, ci⟩
    simp only [List.append_nil, List.mem_cons, Prod.mk.injEq, List.not_mem_nil, or_false] at hv
    rw [hv.2]
    exact ⟨(sessionStands_work s).handMotionToWm k, placed.andThen (handMotionToWm_only x).placed,
      (handMotionToWm_only x).ci.trans ci⟩
  · simp only [List.append_nil, List.mem_cons, Prod.mk.injEq, List.not_mem_nil, or_false] at hv
    rw [hv.2]
    exact (sessionTook_work s _).handMotionToWm k
  · rintro ⟨k, placed, ci⟩
    obtain ⟨open_, moves⟩ := (Bool.and_eq_true _ _).mp on
    rw [decide_eq_true_eq] at moves
    have opened : x.sc.service = true := by rw [k.service, ← h.service, open_]
    have takes : sessionTakesMotion x = endSession .motion x := if_neg (by rw [ci]; exact moves)
    rw [takes]
    exact endSession_took moves k opened placed
  · rintro ⟨k, placed, -⟩
    have closed (moves : t.ci.motion ≠ .standstill) : s.sc.service = false := by
      rw [← h.service]
      simpa [moves] using off
    exact ⟨placed, fun _ => k.service, fun moves => k.service.trans (closed moves),
      fun moves open_ => absurd ((closed moves).symm.trans open_) nofun⟩

/-! ## The hand-over -/

theorem derived_testing (x : Gauge) (r : GaugeRec) (f : Bool) (v : ChanView) : (x.derived r f v).testing = x.testing := by
  unfold Gauge.derived
  split
  · rfl
  · split <;> rfl

theorem derive_tests (g : Fin 8) (r : GaugeRec) (f : Bool) (v : ChanView) (t : State) :
    (t.modGauge g fun x => x.derived r f v).testsInForce = t.testsInForce := by
  refine testsInForce_congr (fun j => ?_) rfl rfl
  show (vmod t.ge g _)[j].testing = _
  by_cases same : g = j
  · subst same
    rw [vmod_self, derived_testing]
  · rw [vmod_ne _ _ same]

/-- A motion state handed, as the rules have it. -/
theorem State.SessionTook.handsMotion (h : s.SessionTook t.ci.motion t) (moved : t.ci.motion ≠ s.ci.motion) :
    s.handsMotion t := by
  refine ⟨fun same => absurd same moved, fun _ => ⟨h.motion.hasPlaced, h.rests, fun moves => ⟨h.ends moves, fun open_ => ?_⟩⟩⟩
  obtain ⟨idle, ended, order⟩ := h.tests moves open_
  exact ⟨idle, ended.hasPlaced, fun before => (order before).imp (·.hasPlaced) (·.hasPlaced)⟩

theorem State.Hands.handsMotion {all moved : Bool} {faults : List (FaultSource × Bool)} (h : s.Hands u all moved) :
    s.handsMotion (u.handed s.ci all moved faults) := by
  set t := u.handed s.ci all moved faults with t_eq
  have ci : t.ci = u.ci := (handed_only u s.ci all moved faults).ci
  have view : Only [.wm] u (viewChannels (changedChannels s.ci u.ci) u) := viewChannels_only u _
  have start : s.SessionStands u := ⟨by rw [h.sc], h.only.placed, .inl (testsInForce_same h.only.ge h.only.ao)⟩
  have first : s.SessionStands (viewChannels (changedChannels s.ci u.ci) u) :=
    start.quiet view.placed view.service (testsInForce_same view.ge view.ao)
  set v := viewChannels (changedChannels s.ci u.ci) u with v_eq
  have stands : s.SessionStands { v with freeCount := v.freeCount + 1 } :=
    first.quiet (u := { v with freeCount := v.freeCount + 1 }) (.refl _) rfl (testsInForce_same rfl rfl)
  have derives (x : State) (g : Fin 8) (r : GaugeRec) (f : Bool) (w : ChanView) (k : s.SessionStands x) :
      s.SessionStands (x.modGauge g fun y => y.derived r f w) :=
    k.quiet (u := x.modGauge g fun y => y.derived r f w) (.refl _) rfl (derive_tests g r f w x)
  by_cases changed : moved = true
  · refine State.SessionTook.handsMotion ?_ (by rw [ci]; exact fun same => h.moved.1 changed same.symm)
    rw [ci, t_eq, handed_eq]
    refine handOver_at (fun x => s.SessionStands x ∧ x.ci = u.ci) (s.SessionTook u.ci.motion) .motion
      ⟨stands, view.ci⟩ (fun q ne x => ⟨?_, fun k => ?_⟩) (fun _ x => ?_) (fun off => absurd (changed.symm.trans off) nofun)
    · rintro ⟨k, same⟩
      exact ⟨(sessionStands_work s).part _ q (fun g _ y ky r f w => derives y g r f w ky) (fun e => absurd e ne) x k,
        (handPart_only _ q x).ci.trans same⟩
    · refine (sessionTook_work s _).part _ q (fun g _ y ky r f w => ?_) (fun e => absurd e ne) x k
      exact ky.quiet (u := y.modGauge g fun z => z.derived r f w) (.refl _) rfl fun idle => (derive_tests g r f w y).trans idle
    · rintro ⟨k, same⟩
      rw [← same]
      exact handMotion_took k
  · have same : t.ci.motion = s.ci.motion := by
      rw [ci]
      by_contra m
      exact changed (h.moved.2 (Ne.symm m))
    refine ⟨fun _ => ?_, fun m => absurd same m⟩
    have kept : s.SessionStands t := by
      rw [t_eq, handed_eq]
      refine handOver_induct s.SessionStands stands fun p on x k => ?_
      exact (sessionStands_work s).part _ p (fun g _ y ky r f w => derives y g r f w ky) (fun e => absurd (on e) changed) x k
    exact kept.service

end

end Sys2Proof.Machine
end

section
/-! PROOFS. Changed network channels handed on in RUN (R64 to R67): the motion state, and what every block makes of the change. -/

namespace Sys2Proof.Machine

set_option Elab.async false

section
variable {s v : State} {a c : Interp}

/-! ## The motion state (R67) -/

theorem eff_net (c : Interp) (n : Fin 16) : c.eff (netCh n) = c.net[n].view := by
  have notWired : asWired (netCh n) = none := by
    rw [Option.eq_none_iff_forall_not_mem]
    intro w mem
    have same := congrArg Fin.val (asWired_eq_some.1 mem)
    simp only [netCh, wiredCh] at same
    omega
  have net : asNet (netCh n) = some n := asNet_eq_some.2 rfl
  simp only [Interp.eff, notWired, net]

/-- A channel that names no network channel depends on the wired channels alone. -/
theorem eff_wired (wired : c.wired = a.wired) {ch : Fin 40} (notNet : ∀ n, ch ≠ netCh n) : c.eff ch = a.eff ch := by
  have off : asNet ch = none := by
    rw [Option.eq_none_iff_forall_not_mem]
    exact fun n mem => notNet n (asNet_eq_some.1 mem)
  have supplier (w : Fin 24) : c.supplier w = a.supplier w := by
    simp only [Interp.supplier, Interp.primaryPartner, wired]
  unfold Interp.eff
  simp only [off, wired, supplier]

theorem motionStep_frame (c a : Interp) :
    c.motionStep a = { c with motion := (c.motionStep a).motion, standstillT := (c.motionStep a).standstillT } := by
  unfold Interp.motionStep
  split
  · split <;> rfl
  · rfl

/-- The motion state stands where the designated channel has not changed. -/
theorem motionStep_still (still : ∀ ch, c.motionChannel = some ch → a.eff ch = c.eff ch) : c.motionStep a = c := by
  unfold Interp.motionStep
  split
  next ch designated => exact if_pos (still ch designated)
  next => rfl

/-- The motion state follows a changed designated channel. -/
theorem motionStep_moves {n : Fin 16} (designated : c.motionChannel = some (netCh n)) (changed : a.net[n].view ≠ c.net[n].view) :
    ((c.motionStep a).motion, (c.motionStep a).standstillT) =
      motionAfter c.motion c.standstillT c.moveThr c.stopThr c.net[n].view := by
  unfold Interp.motionStep
  rw [designated]
  dsimp only
  rw [eff_net, eff_net, if_neg changed]

/-! ## The hand-over -/

/-- The NETLOST presences that the CI hands. -/
def Interp.netlost (c : Interp) : List (FaultSource × Bool) :=
  (List.finRange 16).map fun n => (.netlost n, decide (c.net[n].status = .lost))

theorem mem_netlost {src : FaultSource} {p : Bool} :
    (src, p) ∈ c.netlost ↔ ∃ n : Fin 16, src = .netlost n ∧ p = decide (c.net[n].status = .lost) := by
  simp only [Interp.netlost, List.mem_map, List.mem_finRange, true_and, Prod.mk.injEq, eq_comm]

theorem netlost_hands (c : Interp) : HandsPresences c.netlost where
  source src p mem := by
    obtain ⟨n, rfl, -⟩ := mem_netlost.1 mem
    exact ⟨id, fun _ => id⟩
  one src p q hp hq := by
    obtain ⟨n, rfl, rfl⟩ := mem_netlost.1 hp
    obtain ⟨m, same, rfl⟩ := mem_netlost.1 hq
    rw [FaultSource.netlost.inj same]

/-- What every block has of network channels that the CI has changed (R51, R67). -/
structure State.NetsHanded (s : State) (c : Interp) (t : State) : Prop where
  ci       : t.ci = c.motionStep s.ci
  only     : Only interpParts s t
  netlost  : ∀ n : Fin 16, t.fm.present (.netlost n) = decide (c.net[n].status = .lost)
  motion   : s.handsMotion t
  gauges   : ∀ g : Fin 8, s.gaugeTakes t g
  leaves   : ∀ i : Fin 8, s.leafTakes t i
  warnings : ∀ w : Fin 64, s.warnTakes t w

theorem handNetworks_hands (only : Only [.reports, .ci] s v) (ci : v.ci = { s.ci with net := v.ci.net })
    (run : s.sc.opState = .run) : s.NetsHanded v.ci (handNetworks s.ci v) := by
  set u := v.modCi (·.motionStep s.ci) with u_eq
  have ciU : u.ci = v.ci.motionStep s.ci := rfl
  have frame := motionStep_frame v.ci s.ci
  rw [← ciU] at frame
  have net : u.ci.net = v.ci.net := by rw [frame]
  set moved := decide (u.ci.motion ≠ s.ci.motion) with moved_eq
  have eq : handNetworks s.ci v = u.handed s.ci false moved u.ci.netlost := rfl
  have hands : s.Hands u false moved := by
    refine ⟨only.mono.trans (modCi_only v _).mono, .inl run, ?_, ?_, ?_⟩
    · have refFault : u.ci.refFault = s.ci.refFault := by rw [frame, ci]
      rw [refFault]
      exact ⟨nofun, fun k => absurd rfl k⟩
    · rw [moved_eq, decide_eq_true_eq]
      exact ne_comm
    · rw [frame, ci]
  have presences := netlost_hands u.ci
  rw [eq]
  refine ⟨?_, eq ▸ only.mono.trans (handNetworks_only v _), fun n => ?_, hands.handsMotion, hands.gaugeTakes,
    hands.leafTakes presences, hands.warnTakes presences run⟩
  · exact (handed_only u s.ci false moved u.ci.netlost).ci.trans ciU
  · rw [handed_presence presences (mem_netlost.2 ⟨n, rfl, rfl⟩), net]

end

end Sys2Proof.Machine
end

section
/-! PROOFS. The timers of network channels and the standstill timer (O52; R65, R67, R182). -/

namespace Sys2Proof.Machine

set_option Elab.async false

section
variable {s t : State} {n : Fin 16} {f : Net → Net}

/-- What an expired timer of a network channel brings about: the channel, the motion state where it is the designated one, and what
every block makes of it. -/
theorem netExpired_hands (run : s.sc.opState = .run) (f : Net → Net) (n : Fin 16) :
    s.NetsHanded { s.ci with net := vset s.ci.net n (f s.ci.net[n]) } (netExpired n f s) := by
  set v := reportNet n s.ci.net[n] (f s.ci.net[n]) (s.modNet n f) with v_eq
  have reported : Only [.reports] (s.modNet n f) v := reportNet_only _ _ _ _
  have ci : v.ci = { s.ci with net := vset s.ci.net n (f s.ci.net[n]) } := reported.ci
  have hands := handNetworks_hands (s := s) (v := v) ((modNet_only s n f).mono.andThen reported) (by rw [ci]) run
  rwa [ci] at hands

/-- The motion state and its timer after a change of the designated channel. -/
theorem NetsHanded_designated {x : Net} (h : s.NetsHanded { s.ci with net := vset s.ci.net n x } t)
    (designated : s.ci.motionChannel = some (netCh n)) (changed : x.status ≠ s.ci.net[n].status) :
    (t.ci.motion, t.ci.standstillT) = motionAfter s.ci.motion s.ci.standstillT s.ci.moveThr s.ci.stopThr x.view := by
  have moves := motionStep_moves (a := s.ci) (c := { s.ci with net := vset s.ci.net n x }) designated (by
    show s.ci.net[n].view ≠ (vset s.ci.net n x)[n].view
    rw [vset_self]
    exact fun same => changed (congrArg ChanView.status same).symm)
  rw [h.ci, moves]
  show motionAfter _ _ _ _ (vset s.ci.net n x)[n].view = _
  rw [vset_self]

theorem NetsHanded_undesignated {x : Net} (h : s.NetsHanded { s.ci with net := vset s.ci.net n x } t)
    (other : s.ci.motionChannel ≠ some (netCh n)) : t.ci.motion = s.ci.motion ∧ t.ci.standstillT = s.ci.standstillT := by
  have still : t.ci = { s.ci with net := vset s.ci.net n x } := by
    rw [h.ci]
    refine motionStep_still fun ch designated => ?_
    by_cases isNet : ∃ m, ch = netCh m
    · obtain ⟨m, rfl⟩ := isNet
      have ne : n ≠ m := fun e => other (e ▸ designated)
      rw [eff_net, eff_net]
      show _ = (vset s.ci.net n x)[m].view
      rw [vset_ne _ _ ne]
    · exact (eff_wired (c := { s.ci with net := vset s.ci.net n x }) (a := s.ci) rfl fun m e => isNet ⟨m, e⟩).symm
  rw [still]
  exact ⟨rfl, rfl⟩

/-- An expired timer, as the statement asks it of every timer. -/
theorem netExpired_moves {x : Net} (run : s.sc.opState = .run) (x_eq : x = f s.ci.net[n]) :
    let t := netExpired n f s
    t.ci.net = s.ci.net.set n x ∧
      t.ci = { s.ci with net := t.ci.net, motion := t.ci.motion, standstillT := t.ci.standstillT } ∧
      (s.ci.motionChannel ≠ some (netCh n) → t.ci.motion = s.ci.motion ∧ t.ci.standstillT = s.ci.standstillT) ∧
      t.fm.present (.netlost n) = decide (x.status = .lost) ∧ t.cu = s.cu ∧ t.pending = s.pending ∧
      t.sc.opState = .run ∧ s.handsMotion t ∧ (∀ g : Fin 8, s.gaugeTakes t g) ∧ (∀ i : Fin 8, s.leafTakes t i) ∧
      ∀ w : Fin 64, s.warnTakes t w := by
  subst x_eq
  intro t
  have h : s.NetsHanded { s.ci with net := vset s.ci.net n (f s.ci.net[n]) } t := netExpired_hands run f n
  have frame := motionStep_frame { s.ci with net := vset s.ci.net n (f s.ci.net[n]) } s.ci
  rw [← h.ci] at frame
  have net : t.ci.net = vset s.ci.net n (f s.ci.net[n]) := by rw [frame]
  refine ⟨net, ?_, NetsHanded_undesignated h, ?_, h.only.cu, h.only.pending, h.only.opState.trans run, h.motion,
    h.gauges, h.leaves, h.warnings⟩
  · rw [net]
    exact frame
  · rw [h.netlost n]
    show decide ((vset s.ci.net n (f s.ci.net[n]))[n].status = _) = _
    rw [vset_self]

/-! ## The motion state alone -/

/-- A condition on anything but the motion state takes nothing where channels, display values, leaves and supply stand. -/
theorem condTakes_still {c : Condition} {old : Bool} (eff : t.ci.eff = s.ci.eff) (display : ∀ g : Fin 8, t.ge[g].display = s.ge[g].display)
    (dm : t.dm = s.dm) (supply : t.ci.supply = s.ci.supply) (cond : c ≠ .motionUnknown) : s.condTakes t c old = none := by
  have leaf (ls : BitVec 8) : ¬ ∃ l : Fin 8, ls.getLsbD l.val = true ∧ t.dm.leaves[l].conds ≠ s.dm.leaves[l].conds :=
    fun ⟨l, _, changed⟩ => changed (by rw [dm])
  cases c with
  | switchActive ch | channelFault ch | channelLost ch => exact if_neg fun changed => changed (by rw [eff])
  | valueBelow g _ _ | valueAbove g _ _ => exact if_neg fun changed => changed (display g).symm
  | doorNotSecure ls | doorReleased ls | doorObstructed ls | doorFault ls => exact if_neg (leaf ls)
  | supplyLow | supplyHigh => exact if_neg fun changed => changed supply.symm
  | motionUnknown => exact absurd rfl cond

/-- A hand-over of nothing but the motion state. -/
def motionAlone : HandOver := { chs := [], all := false, faults := [] }

/-- A new motion state, handed alone in RUN, at a warning. -/
theorem handMotion_warns {u : State} (only : Only [.ci] s u) (eff : u.ci.eff = s.ci.eff) (supply : u.ci.supply = s.ci.supply)
    (run : s.sc.opState = .run) (moved : u.ci.motion ≠ s.ci.motion) (w : Fin 64) : s.warnTakes (handMotion u) w := by
  refine warnTakes_of fun d v def? view one once => ?_
  set t := handMotion u with t_eq
  have awaits : u.Awaits [.motion] u := ⟨.refl _ _, nofun, nofun⟩
  have runU : u.sc.opState = .run := by rw [only.sc, run]
  have ci : t.ci = u.ci := (handMotion_only u).ci
  have motion : s.ci.motion ≠ t.ci.motion := by rw [ci]; exact moved.symm
  have dm : t.dm = s.dm := (handPart_dm (o := motionAlone) (p := .motion) nofun u).trans only.dm
  have display (g : Fin 8) : t.ge[g].display = s.ge[g].display := by
    have shown : u.ge[g].Shows t.ge[g] := handPart_shows (o := motionAlone) (p := .motion) nofun u (.refl u.ge[g])
    rw [shown.display, only.ge]
  have takes (cond : d.cond ≠ .motionUnknown) : s.condTakes t d.cond s.wm.inst[w].cond = none :=
    condTakes_still (by rw [ci, eff]) display dm (by rw [ci, supply]) cond
  have handed : motionAlone.run .motion u = t := rfl
  unfold State.WarnAsked
  rw [if_neg motion]
  extract_lets now changed cond
  by_cases on : d.readsMotion = true
  · have acted := handPart_asks (o := motionAlone) (w := w) (d := d) awaits runU (by rw [only.wm, view]) (by rw [only.wm, def?]) on
    rw [handed, only.wm] at acted
    have updated : s.wm.inst[w].updated d (motionAlone.reads .motion) (motionAlone.hands u .motion v) =
        { s.wm.inst[w] with cond } := by
      refine congrArg (fun c => { s.wm.inst[w] with cond := c }) ?_
      show (if decide (d.cond = .motionUnknown) then _ else _) = cond
      by_cases unknown : d.cond = .motionUnknown
      · have value : now = some (decide (t.ci.motion = .unknown)) := by
          show s.condTakes t d.cond _ = _
          rw [unknown]
          exact if_pos motion
        rw [if_pos (decide_eq_true unknown), unknown]
        show _ = now.getD _
        rw [value, ci]
        rfl
      · rw [if_neg (by rw [decide_eq_false unknown]; nofun)]
        show _ = now.getD _
        rw [show now = none from takes unknown]
        rfl
    rw [updated] at acted
    refine .inr ⟨?_, ?_⟩
    · rcases readsMotion_iff.1 on with unknown | gate
      · refine .inl ?_
        show (s.condTakes t d.cond _).isSome = true
        rw [unknown]
        exact congrArg Option.isSome (if_pos motion)
      · exact .inr ⟨gate, motion⟩
    · have same : t.ci.motion = u.ci.motion := by rw [ci]
      show State.Acted w d { s.wm.inst[w] with cond } (cond && d.gating.holds t.ci.motion) t
      rw [same]
      exact acted
  · have off : ¬ (d.cond = .motionUnknown ∨ d.gating ≠ .always) := fun reads => on (readsMotion_iff.2 reads)
    have rests := handPart_unasked (o := motionAlone) (p := .motion) (w := w) (d := d) awaits (.inl runU)
      ⟨nofun, nofun⟩ (by rw [only.wm, def?]) on
    refine .inl ⟨takes fun unknown => off (.inl unknown), fun c => off (.inr c.1), ?_⟩
    rw [← handed, rests.inst, only.wm]

/-- Nothing handed. -/
theorem warnTakes_still (eff : t.ci.eff = s.ci.eff) (motion : t.ci.motion = s.ci.motion) (supply : t.ci.supply = s.ci.supply)
    (ge : t.ge = s.ge) (dm : t.dm = s.dm) (wm : t.wm = s.wm) (w : Fin 64) : s.warnTakes t w := by
  refine warnTakes_of fun d v _ _ _ _ => .inl ⟨?_, fun c => c.2 motion.symm, by rw [wm]⟩
  by_cases unknown : d.cond = .motionUnknown
  · rw [unknown]
    exact if_neg fun changed => changed motion.symm
  · exact condTakes_still eff (fun g => by rw [ge]) dm supply unknown

/-- The standstill timer has expired (R67). -/
theorem standstillExpired_takes (run : s.sc.opState = .run) :
    let t := standstillExpired s
    t.ci = { s.ci with motion := .standstill, standstillT := none } ∧ t.cu = s.cu ∧ t.pending = s.pending ∧
      t.sc = s.sc ∧ t.dm = s.dm ∧ (s.ci.motion = .standstill → t = { s with ci := t.ci }) ∧ s.handsMotion t ∧
      ∀ w : Fin 64, s.warnTakes t w := by
  intro t
  set u := s.modCi fun c => { c with motion := .standstill, standstillT := none } with u_eq
  have only : Only [.ci] s u := modCi_only s _
  have eff : u.ci.eff = s.ci.eff := eff_congr rfl rfl
  have e : t = if s.ci.motion = .standstill then u else handMotion u := rfl
  by_cases before : s.ci.motion = .standstill
  · rw [if_pos before] at e
    rw [e]
    refine ⟨rfl, rfl, rfl, rfl, rfl, fun _ => rfl, ⟨fun _ => rfl, fun changed => absurd before.symm changed⟩,
      warnTakes_still eff before.symm rfl rfl rfl rfl⟩
  · rw [if_neg before] at e
    have moved : u.ci.motion ≠ s.ci.motion := Ne.symm before
    have stands : s.SessionStands u := ⟨rfl, .refl _, .inl (testsInForce_same rfl rfl)⟩
    have hands := handMotion_only u
    have ci : (handMotion u).ci = u.ci := hands.ci
    have took : s.SessionTook .standstill (handMotion u) := handMotion_took stands
    rw [e]
    refine ⟨ci, hands.cu, hands.pending, ?_, handPart_dm (o := motionAlone) (p := .motion) nofun u,
      fun still => absurd still before, State.SessionTook.handsMotion (by rw [ci]; exact took) (by rw [ci]; exact moved),
      handMotion_warns only eff rfl run moved⟩
    have service := took.rests rfl
    have bare : (handMotion u).sc.bare = s.sc.bare := hands.scBare
    cases hs : s.sc
    cases ht : (handMotion u).sc
    simp_all [Controller.bare]

theorem due_of {a b c : Prop} [Decidable a] [Decidable b] [Decidable c] (ha : a) (hb : b) (hc : c) :
    (decide a && decide b && decide c) = true := by
  rw [decide_eq_true ha, decide_eq_true hb, decide_eq_true hc]
  rfl

theorem notDue_of {a b c : Prop} [Decidable a] [Decidable b] [Decidable c] (h : ¬ a ∨ ¬ c) :
    (decide a && decide b && decide c) = false := by
  rcases h with h | h
  · rw [decide_eq_false h]
    rfl
  · rw [decide_eq_false h, Bool.and_false]

/-- Settles O52: a due timer is one changed channel handed on, and the standstill timer the motion state alone. -/
theorem networkAndStandstillTimersExpire : Obligations.NetworkAndStandstillTimersExpire := by
  intro s moved
  refine ⟨fun n run => ⟨fun valid due => ?_, fun held due => ?_, fun init due => ?_⟩, fun n => ⟨fun off => ?_, fun off => ?_, fun off => ?_⟩,
    fun run due => ?_, fun off => ?_⟩
  · refine ⟨netExpired n Net.stale s, nextIf_pos (due_of run valid due) _ _, ?_, fun designated => ?_⟩
    · have e : s.ci.net[n].stale = { s.ci.net[n] with status := .held, freshT := none, lostT := some (100 * s.ci.net[n].cfg.lost) } := by
        rw [Net.stale, Nat.mul_comm]
      exact netExpired_moves run e.symm
    · have after := NetsHanded_designated (netExpired_hands run Net.stale n) designated (by rw [valid]; nofun)
      exact ⟨congrArg Prod.fst after, congrArg Prod.snd after⟩
  · refine ⟨netExpired n Net.lose s, nextIf_pos (due_of run held due) _ _, netExpired_moves run rfl,
      fun designated => ?_⟩
    have after := NetsHanded_designated (netExpired_hands run Net.lose n) designated (by rw [held]; nofun)
    exact ⟨congrArg Prod.fst after, congrArg Prod.snd after⟩
  · refine ⟨netExpired n Net.lose s, nextIf_pos (due_of run init due) _ _, netExpired_moves run rfl,
      fun designated => ?_⟩
    have after := NetsHanded_designated (netExpired_hands run Net.lose n) designated (by rw [init]; nofun)
    exact ⟨congrArg Prod.fst after, congrArg Prod.snd after⟩
  · exact nextIf_neg (notDue_of off) _ _
  · exact nextIf_neg (notDue_of off) _ _
  · exact nextIf_neg (notDue_of off) _ _
  · exact ⟨standstillExpired s, nextIf_pos (by simp [State.inRun, run, due]) _ _, standstillExpired_takes run⟩
  · exact nextIf_neg (by rcases off with off | off <;> simp [State.inRun, off]) _ _

end

end Sys2Proof.Machine
end

section
/-! PROOFS. POST_NETWORK (O29; R64, R67, R68). -/

namespace Sys2Proof.Machine

set_option Elab.async false

/-! ## The pairs carried -/

theorem networkPairs_cons (b : Byte) {v : Int} (h : isS16 v) (p : List Byte) :
    networkPairs ((b :: i2 v) ++ p) = (b.toNat, v) :: networkPairs p := by
  have first : (b :: i2 v).length = 3 := rfl
  have count : ((b :: i2 v) ++ p).length / 3 = p.length / 3 + 1 := by
    rw [List.length_append, first]
    omega
  have value : s16 ((b :: i2 v) ++ p) 1 = v := signed_toNat h
  unfold networkPairs
  rw [count, List.range_succ_eq_map, List.map_cons, List.map_map]
  refine congrArg₂ List.cons (Prod.ext rfl value) (List.map_congr_left fun i _ => ?_)
  have at_ (k : Nat) : u8 ((b :: i2 v) ++ p) (3 * (i + 1) + k) = u8 p (3 * i + k) := by
    rw [← u8_append (b :: i2 v) p (3 * i + k), first]
    congr 1
    omega
  show (u8 _ (3 * (i + 1) + 0), asSigned 16 (u8 _ (3 * (i + 1) + 1) + 256 * u8 _ (3 * (i + 1) + 2))) = _
  rw [at_, at_, at_]
  rfl

theorem networkPairs_postPayload (ps : List (Byte × Int)) (h : ∀ q ∈ ps, isS16 q.2) :
    networkPairs (postPayload ps) = ps.map fun q => (q.1.toNat, q.2) := by
  induction ps with
  | nil => rfl
  | cons q ps ih =>
    have rest := ih fun x hx => h x (List.mem_cons_of_mem _ hx)
    show networkPairs ((q.1 :: i2 q.2) ++ postPayload ps) = _
    rw [networkPairs_cons q.1 (h q List.mem_cons_self), rest]
    rfl

/-! ## The pairs applied (R64) -/

/-- The last value that some decoded pairs carry for a network channel. -/
def lastCarried (l : List (Nat × Int)) (n : Fin 16) : Option Int :=
  ((l.filter fun q => decide (q.1 = 24 + n.val)).getLast?).map (·.2)

theorem lastCarried_postPayload (ps : List (Byte × Int)) (n : Fin 16) :
    lastCarried (ps.map fun q => (q.1.toNat, q.2)) n = lastPosted ps n := by
  unfold lastCarried lastPosted
  rw [List.filter_map, List.getLast?_map, Option.map_map]
  rfl

theorem lastCarried_cons (ch : Nat) (v : Int) (l : List (Nat × Int)) (n : Fin 16) :
    lastCarried ((ch, v) :: l) n = if ch = 24 + n.val then some ((lastCarried l n).getD v) else lastCarried l n := by
  unfold lastCarried
  split
  next here =>
    rw [List.filter_cons_of_pos (by simpa using here), List.getLast?_cons]
    cases (l.filter fun q => decide (q.1 = 24 + n.val)).getLast? <;> rfl
  next other => rw [List.filter_cons_of_neg (by simpa using other)]

theorem lastCarried_none {l : List (Nat × Int)} {n : Fin 16} :
    lastCarried l n = none ↔ l.all (fun p => decide (p.1 ≠ 24 + n.val)) = true := by
  simp [lastCarried]

theorem named_iff {ch : Nat} {n : Fin 16} : (item? 40 ch).bind asNet = some n ↔ ch = 24 + n.val := by
  have := n.isLt
  unfold item?
  split
  next inside =>
    rw [Option.bind_some, asNet_eq_some, Fin.ext_iff]
    simp only [netCh]
    omega
  next outside =>
    simp only [Option.bind_none, reduceCtorEq, false_iff]
    omega

variable {c : Interp}

/-- A pair is applied where it is the last for a channel of kind NETWORK. -/
theorem mem_postedPairs {l : List (Nat × Int)} {n : Fin 16} {v : Int} :
    (n, v) ∈ postedPairs c l ↔ c.net[n].cfg.network = true ∧ lastCarried l n = some v := by
  induction l with
  | nil => simp [postedPairs, lastCarried]
  | cons q l ih =>
    obtain ⟨ch, x⟩ := q
    rw [lastCarried_cons, postedPairs]
    cases named : (item? 40 ch).bind asNet with
    | none =>
      have other : ch ≠ 24 + n.val := fun e => absurd ((named_iff.2 e).symm.trans named) nofun
      rw [if_neg other]
      exact ih
    | some m =>
      have ch_eq : ch = 24 + m.val := named_iff.1 named
      have later : l.all (fun p => decide (p.1 ≠ ch)) = true ↔ lastCarried l m = none := by rw [ch_eq, lastCarried_none]
      dsimp only
      by_cases same : m = n
      · subst same
        rw [if_pos ch_eq]
        cases carried : lastCarried l m with
        | none =>
          rw [later.2 carried, Bool.and_true]
          split
          next network =>
            rw [List.mem_cons, ih, carried]
            refine ⟨fun mem => ?_, fun ⟨_, value⟩ => .inl ?_⟩
            · rcases mem with e | ⟨-, e⟩
              · exact ⟨network, congrArg some (Prod.mk.inj e).2.symm⟩
              · exact absurd e nofun
            · rw [show x = v from Option.some.inj value]
          next off => exact ⟨fun mem => absurd (ih.1 mem).1 off, fun on => absurd on.1 off⟩
        | some y =>
          have more : l.all (fun p => decide (p.1 ≠ ch)) = false := by
            rw [← Bool.not_eq_true, later, carried]
            nofun
          rw [more, Bool.and_false, if_neg nofun, ih, carried]
          rfl
      · have other : ch ≠ 24 + n.val := fun e => same (Fin.ext (by omega))
        rw [if_neg other]
        split
        · rw [List.mem_cons, ih]
          exact or_iff_right fun e => same (Prod.mk.inj e).1.symm
        · exact ih

theorem postedPairs_nodup (l : List (Nat × Int)) : ((postedPairs c l).map (·.1)).Nodup := by
  induction l with
  | nil => exact List.nodup_nil
  | cons q l ih =>
    obtain ⟨ch, x⟩ := q
    rw [postedPairs]
    split
    next n named =>
      split
      next last =>
        rw [Bool.and_eq_true] at last
        refine List.nodup_cons.2 ⟨fun mem => ?_, ih⟩
        obtain ⟨⟨m, v⟩, there, e⟩ := List.mem_map.1 mem
        obtain rfl : m = n := e
        have carried := (mem_postedPairs.1 there).2
        rw [named_iff.1 named, ← lastCarried_none] at last
        exact absurd (last.2.symm.trans carried) nofun
      next => exact ih
    next => exact ih

/-- As many pairs are applied as channels of kind NETWORK are named. -/
theorem postedPairs_length (l : List (Nat × Int)) : (postedPairs c l).length =
    (List.finRange 16).countP fun n => c.net[n].cfg.network && (lastCarried l n).isSome := by
  rw [List.countP_eq_length_filter, ← List.length_map (f := (·.1)) (as := postedPairs c l)]
  refine ((List.perm_ext_iff_of_nodup (postedPairs_nodup l) ((List.nodup_finRange 16).filter _)).2 fun n => ?_).length_eq
  simp only [List.mem_map, Prod.exists, exists_and_right, exists_eq_right, mem_postedPairs, List.mem_filter, List.mem_finRange,
    true_and, Bool.and_eq_true, Option.isSome_iff_exists, exists_and_left]

/-! ## The channels after them -/

variable {s t : State}

theorem applyPost_only_reports (n : Fin 16) (v : Int) (s : State) :
    Only [.reports] (s.modNet n fun _ => s.ci.net[n].post v) (applyPost n v s) :=
  (Only.ite (report_only _ _ _ _) (.refl _ _)).trans (reportNet_only _ _ _ _)

theorem applyPost_ci (n : Fin 16) (v : Int) (s : State) :
    (applyPost n v s).ci = { s.ci with net := vset s.ci.net n (s.ci.net[n].post v) } :=
  (applyPost_only_reports n v s).ci

/-- Pairs for different channels are applied each to its own. -/
theorem applyPosts_net (L : List (Fin 16 × Int)) (nodup : (L.map (·.1)).Nodup) (s : State) :
    let t := L.foldl (fun t p => applyPost p.1 p.2 t) s
    Only [.reports, .ci] s t ∧ t.ci = { s.ci with net := t.ci.net } ∧
      (∀ n v, (n, v) ∈ L → t.ci.net[n] = s.ci.net[n].post v) ∧ ∀ n, n ∉ L.map (·.1) → t.ci.net[n] = s.ci.net[n] := by
  induction L generalizing s with
  | nil => exact ⟨.refl _ _, rfl, nofun, fun _ _ => rfl⟩
  | cons q L ih =>
    obtain ⟨m, x⟩ := q
    obtain ⟨fresh, rest⟩ := List.nodup_cons.1 nodup
    intro t
    obtain ⟨only, frame, posted, stays⟩ := ih rest (applyPost m x s)
    have first : (applyPost m x s).ci = { s.ci with net := vset s.ci.net m (s.ci.net[m].post x) } := applyPost_ci m x s
    have net (n : Fin 16) : (applyPost m x s).ci.net[n] = (vset s.ci.net m (s.ci.net[m].post x))[n] := by rw [first]
    refine ⟨(applyPost_only s m x).trans only, ?_, fun n v mem => ?_, fun n off => ?_⟩
    · rw [first] at frame
      exact frame
    · rcases List.mem_cons.1 mem with e | mem
      · obtain ⟨rfl, rfl⟩ := Prod.mk.inj e
        exact (stays n fresh).trans ((net n).trans (vset_self _ _ _))
      · have other : m ≠ n := fun e => fresh (List.mem_map.2 ⟨(n, v), mem, e.symm⟩)
        rw [show t.ci.net[n] = _ from posted n v mem, net n, vset_ne _ _ other]
    · have other : m ≠ n := fun e => off (e ▸ List.mem_cons_self)
      rw [show t.ci.net[n] = _ from stays n fun mem => off (List.mem_cons_of_mem _ mem), net n, vset_ne _ _ other]

/-- The value that a message has for a channel (R64). -/
def Net.posted (x : Net) (ps : List (Byte × Int)) (n : Fin 16) : Option Int := if x.cfg.network then lastPosted ps n else none

/-- The network channels after a message (R64). -/
theorem posted_net (ps : List (Byte × Int)) (s : State) (n : Fin 16) :
    let t := (postedPairs s.ci (ps.map fun q => (q.1.toNat, q.2))).foldl (fun t p => applyPost p.1 p.2 t) s
    t.ci.net[n] = (s.ci.net[n].posted ps n).elim s.ci.net[n] s.ci.net[n].post := by
  intro t
  obtain ⟨-, -, posted, stays⟩ := applyPosts_net _ (postedPairs_nodup (c := s.ci) (ps.map fun q => (q.1.toNat, q.2))) s
  have mem (v : Int) : (n, v) ∈ postedPairs s.ci (ps.map fun q => (q.1.toNat, q.2)) ↔
      s.ci.net[n].cfg.network = true ∧ lastPosted ps n = some v := by
    rw [mem_postedPairs, lastCarried_postPayload]
  have none_of (off : ∀ v, (n, v) ∉ postedPairs s.ci (ps.map fun q => (q.1.toNat, q.2))) : t.ci.net[n] = s.ci.net[n] := by
    refine stays n fun there => ?_
    obtain ⟨⟨m, v⟩, found, e⟩ := List.mem_map.1 there
    obtain rfl : m = n := e
    exact off v found
  unfold Net.posted
  cases network : s.ci.net[n].cfg.network with
  | false => exact none_of fun v there => absurd (network.symm.trans ((mem v).1 there).1) nofun
  | true =>
    rw [if_pos rfl]
    cases value : lastPosted ps n with
    | none => exact none_of fun v there => absurd (value.symm.trans ((mem v).1 there).2) nofun
    | some v => exact posted n v ((mem v).2 ⟨network, value⟩)

/-- The motion state and the standstill timer by the VALID rows of R67. -/
theorem motionAfter_valid {m : MotionState} {timer : Option Nat} {move stop : Nat} {v : ChanView} {x : Int}
    (valid : v.status = .valid) (value : v.value = some x) :
    ((move : Int) ≤ x → motionAfter m timer move stop v = (.moving, none)) ∧
    (x < move → (stop : Int) ≤ x →
      motionAfter m timer move stop v = if m = .standstill then (.standstill, timer) else (.moving, none)) ∧
    (x < move → x < stop →
      motionAfter m timer move stop v = if m = .standstill then (.standstill, timer) else (m, some (timer.getD 1000))) := by
  obtain ⟨status, val, reading⟩ := v
  subst valid value
  refine ⟨fun fast => if_pos fast, fun slow rolling => ?_, fun slow still => ?_⟩
  · exact (if_neg (by simpa using slow)).trans (if_pos rolling)
  · exact (if_neg (by simpa using slow)).trans (if_neg (by simpa using still))

section
variable {v : State}

/-- The motion state after changed network channels that are VALID where they have changed (R67). -/
theorem NetsHanded_motion (frame : v.ci = { s.ci with net := v.ci.net }) (h : s.NetsHanded v.ci t)
    (valid : ∀ n : Fin 16, v.ci.net[n] = s.ci.net[n] ∨ v.ci.net[n].status = .valid) :
    let moves (m : MotionState) (timer : Option Nat) : Prop := t.ci.motion = m ∧ t.ci.standstillT = timer
    let old := s.ci.motion
    let timer := s.ci.standstillT
    ((∀ n : Fin 16, s.ci.motionChannel ≠ some (netCh n)) → moves old timer) ∧
    ∀ n : Fin 16, s.ci.motionChannel = some (netCh n) →
      let same := v.ci.net[n].status = s.ci.net[n].status ∧ v.ci.net[n].value = s.ci.net[n].value
      (same → moves old timer) ∧
      (¬ same → v.ci.net[n].status = .valid ∧ ∀ x : Int, v.ci.net[n].value = some x →
        ((s.ci.moveThr : Int) ≤ x → moves .moving none) ∧
        (x < s.ci.moveThr → (s.ci.stopThr : Int) ≤ x →
          if old = .standstill then moves .standstill timer else moves .moving none) ∧
        (x < s.ci.moveThr → x < s.ci.stopThr →
          if old = .standstill then moves .standstill timer else moves old (some (timer.getD 1000)))) := by
  intro moves old timer
  have channel : v.ci.motionChannel = s.ci.motionChannel := by rw [frame]
  have wired : v.ci.wired = s.ci.wired := by rw [frame]
  have still (unchanged : ∀ ch, v.ci.motionChannel = some ch → s.ci.eff ch = v.ci.eff ch) : moves old timer := by
    have ci : t.ci = v.ci := h.ci.trans (motionStep_still unchanged)
    refine ⟨?_, ?_⟩ <;> rw [ci, frame]
  refine ⟨fun none => still fun ch designated => ?_, fun n designated => ⟨fun same => still fun ch at_ => ?_, fun changed => ?_⟩⟩
  · refine (eff_wired wired fun n e => none n ?_).symm
    rw [← channel, designated, e]
  · obtain rfl : netCh n = ch := Option.some.inj (designated.symm.trans (channel.symm.trans at_))
    rw [eff_net, eff_net, Net.view, Net.view, same.1, same.2]
  · have status : v.ci.net[n].status = .valid := (valid n).resolve_left fun e => changed (by rw [e]; exact ⟨rfl, rfl⟩)
    refine ⟨status, fun x value => ?_⟩
    have step := motionStep_moves (c := v.ci) (a := s.ci) (channel.trans designated) fun e =>
      changed ⟨(congrArg ChanView.status e).symm, (congrArg ChanView.value e).symm⟩
    have kept : v.ci.motion = s.ci.motion ∧ v.ci.standstillT = s.ci.standstillT ∧ v.ci.moveThr = s.ci.moveThr ∧
        v.ci.stopThr = s.ci.stopThr := by
      rw [frame]
      exact ⟨rfl, rfl, rfl, rfl⟩
    rw [← h.ci, kept.1, kept.2.1, kept.2.2.1, kept.2.2.2] at step
    obtain ⟨fast, rolling, slow⟩ := motionAfter_valid (m := s.ci.motion) (timer := s.ci.standstillT) (move := s.ci.moveThr)
      (stop := s.ci.stopThr) (v := v.ci.net[n].view) status value
    have is {m : MotionState} {k : Option Nat} (e : (t.ci.motion, t.ci.standstillT) = (m, k)) : moves m k := Prod.mk.inj e
    refine ⟨fun a => is (step.trans (fast a)), fun a b => ?_, fun a b => ?_⟩
    · have e := step.trans (rolling a b)
      split at e
      next at_ => rw [if_pos at_]; exact is e
      next no => rw [if_neg no]; exact is e
    · have e := step.trans (slow a b)
      split at e
      next at_ => rw [if_pos at_]; exact is e
      next no => rw [if_neg no]; exact is e

end

theorem exec_postNetwork {tag : Byte} {p : List Byte} (taken : s.taking) (run : s.sc.opState = .run)
    (len : ∃ k, 1 ≤ k ∧ k ≤ 16 ∧ p.length = 3 * k) : exec (.postNetwork tag p) s =
    .next (sendReply 0x20 tag (postRequest p s).2 (postRequest p s).1) :=
  congrArg _ (reqPostNetwork.serve_accepted tag taken ((postLengths_iff _).2 len) (decide_eq_true run) nofun)

theorem postPayload_length (ps : List (Byte × Int)) : (postPayload ps).length = 3 * ps.length := by
  induction ps with
  | nil => rfl
  | cons q ps ih =>
    show ((q.1 :: i2 q.2) ++ postPayload ps).length = _
    have first : (q.1 :: i2 q.2).length = 3 := rfl
    rw [List.length_append, ih, first, List.length_cons]
    omega

/-- Settles O29: the message decoded and applied channel by channel, then one hand-over of what has changed. -/
theorem postNetworkAppliesTheLastValues : Obligations.PostNetworkAppliesTheLastValues := by
  intro s tag ps taken run some_ few words
  set L := postedPairs s.ci (ps.map fun q => (q.1.toNat, q.2)) with L_eq
  set v := L.foldl (fun t p => applyPost p.1 p.2 t) s with v_eq
  obtain ⟨only, frame, -, -⟩ := applyPosts_net L (postedPairs_nodup _) s
  rw [← v_eq] at only frame
  have net (n : Fin 16) := posted_net ps s n
  simp only [← L_eq, ← v_eq] at net
  have h : s.NetsHanded v.ci (handNetworks s.ci v) := handNetworks_hands only frame run
  set t := handNetworks s.ci v with t_eq
  have answer : postRequest (postPayload ps) s = (t, .positive (b1 L.length)) := by
    unfold postRequest
    rw [networkPairs_postPayload ps words]
    rfl
  have ci : t.ci = { s.ci with net := t.ci.net, motion := t.ci.motion, standstillT := t.ci.standstillT } := by
    have step := motionStep_frame v.ci s.ci
    rw [← h.ci, frame] at step
    rw [step]
  have netT : t.ci.net = v.ci.net := by
    rw [h.ci, motionStep_frame]
  have valid (n : Fin 16) : v.ci.net[n] = s.ci.net[n] ∨ v.ci.net[n].status = .valid := by
    rw [net n]
    cases s.ci.net[n].posted ps n with
    | none => exact .inl rfl
    | some x => exact .inr rfl
  have ignOn : t.sc.ignOn = s.sc.ignOn := by simpa [Controller.bare] using congrArg Controller.ignOn h.only.scBare
  have watch : t.sc.watch = s.sc.watch := by simpa [Controller.bare] using congrArg Controller.watch h.only.scBare
  have motion := NetsHanded_motion frame h valid
  rw [← netT] at motion
  refine ⟨sendReply 0x20 tag (.positive (b1 L.length)) t, ?_, fun n => ?_, ?_, ci, ⟨h.only.pending, h.only.cu,
    h.only.opState, h.only.cycle, h.only.opSeconds, ignOn, watch⟩, motion, h.motion, h.gauges, h.leaves, h.warnings⟩
  · rw [exec_postNetwork taken run ⟨ps.length, some_, few, postPayload_length ps⟩, answer]
  · show t.ci.net[n] = _
    rw [netT, net n]
    unfold Net.posted
    dsimp only
    cases (if s.ci.net[n].cfg.network then lastPosted ps n else none) with
    | none => rfl
    | some x =>
      show s.ci.net[n].post x = _
      rw [Net.post, Nat.mul_comm]
      rfl
  · have count : L.length = (List.finRange 16).countP fun n => s.ci.net[n].cfg.network && (lastPosted ps n).isSome := by
      rw [L_eq, postedPairs_length]
      simp only [lastCarried_postPayload]
    rw [← count]
    rfl

end Sys2Proof.Machine
end

section
/-! PROOFS. A result of the REFERENCE or the SUPPLY (R58 to R61): the state it leaves but for the CU, and a change handed on or none. -/

namespace Sys2Proof.Machine

set_option Elab.async false

section
variable {s t u x : State}

/-! ## Nothing handed on -/

theorem gaugeTakes_still (eff : t.ci.eff = s.ci.eff) (refFault : t.ci.refFault = s.ci.refFault) (ge : t.ge = s.ge) (g : Fin 8) :
    s.gaugeTakes t g := by
  have same : t.ge[g] = s.ge[g] := by rw [ge]
  have not (r : GaugeRec) : ¬ (s.ci.eff r.source ≠ t.ci.eff r.source ∨ s.ci.refFault ≠ t.ci.refFault) := by
    rw [eff, refFault]
    exact fun h => h.elim (fun k => k rfl) fun k => k rfl
  unfold State.gaugeTakes
  rw [same]
  exact ⟨rfl, rfl, rfl, fun _ => ⟨rfl, rfl, rfl, rfl⟩, fun r _ => ⟨fun _ => ⟨rfl, rfl, rfl, rfl⟩,
    fun handed => absurd handed (not r), fun n handed => absurd handed (not r)⟩⟩

theorem leafTakes_still (eff : t.ci.eff = s.ci.eff) (dm : t.dm = s.dm) (i : Fin 8) : s.leafTakes t i := by
  have leaf : t.dm.leaves[i] = s.dm.leaves[i] ∧ t.dm.stats[i] = s.dm.stats[i] := by rw [dm]; exact ⟨rfl, rfl⟩
  refine ⟨fun _ => leaf, fun c _ => ⟨fun _ => leaf, fun ⟨slot, y, _, changed⟩ => absurd ?_ changed⟩⟩
  rw [eff]

/-- A change of the channels is handed on: in RUN and SHUTDOWN to the gauges and leaves, in RUN to the warnings. -/
structure State.HandedOn (s t : State) : Prop where
  gauges   : s.live → ∀ g : Fin 8, s.gaugeTakes t g
  leaves   : s.live → ∀ i : Fin 8, s.leafTakes t i
  warnings : s.sc.opState = .run → ∀ w : Fin 64, s.warnTakes t w

theorem State.HandedOn.still (only : Only [.reports, .cu, .ci, .free] s t) (eff : t.ci.eff = s.ci.eff)
    (refFault : t.ci.refFault = s.ci.refFault) (motion : t.ci.motion = s.ci.motion) (supply : t.ci.supply = s.ci.supply) :
    s.HandedOn t where
  gauges _ := gaugeTakes_still eff refFault only.ge
  leaves _ := leafTakes_still eff only.dm
  warnings _ := warnTakes_still eff motion supply only.ge only.dm only.wm

/-- A hand-over compares effective channels alone. -/
theorem handed_congr {a b : Interp} (eff : a.eff = b.eff) (all moved : Bool) (faults : List (FaultSource × Bool)) :
    u.handed a all moved faults = u.handed b all moved faults := by
  unfold State.handed handChannels
  simp only [changedChannels_congr (b := u.ci) eff rfl]

/-- What goes out with a hand-over that leaves the motion state. -/
theorem handChannels_handsOn {before : Interp} {all : Bool} {faults : List (FaultSource × Bool)}
    (only : Only [.reports, .cu, .ci, .free] s u) (eff : before.eff = s.ci.eff)
    (refFault : all = true ↔ s.ci.refFault ≠ u.ci.refFault) (motion : u.ci.motion = s.ci.motion)
    (supply : u.ci.supply = s.ci.supply) (hands : HandsPresences faults) :
    let t := handChannels before all faults [] u
    s.HandedOn t ∧ t.ci = u.ci ∧ ∀ src p, (src, p) ∈ faults → t.fm.present src = p := by
  have eq : handChannels before all faults [] u = u.handed s.ci all false faults :=
    (handChannels_still before all faults u).trans (handed_congr eff all false faults)
  have whole (live : s.live) : s.Hands u all false :=
    ⟨only, live, refFault, ⟨nofun, fun moved => absurd motion.symm moved⟩, supply⟩
  rw [eq]
  exact ⟨⟨fun live => (whole live).gaugeTakes, fun live => (whole live).leafTakes hands,
    fun run => (whole (.inl run)).warnTakes hands run⟩, (handed_only u s.ci all false faults).ci,
    fun src p mem => handed_presence hands mem⟩

/-! ## The completion of a conversion that is not a wired channel's -/

/-- Where the CU is all that changed, the other parts stand. -/
theorem Only.eq_cu (h : Only [.cu] s t) : t = { s with cu := t.cu } := by
  have pending := h.pending
  have li := h.li
  have sc := h.sc
  have ci := h.ci
  have ge := h.ge
  have wm := h.wm
  have ao := h.ao
  have dm := h.dm
  have fm := h.fm
  have jc := h.jc
  have free := h.freeCount
  cases t
  simp_all

variable {c : Conversion} {r : ResultRecord} {spent periods pin bias : Nat}

/-- The CI takes the result on the state as it stands, but for the CU and the free value read. -/
def State.ready (s : State) (r : ResultRecord) : State := { s.stored r with freeCount := s.freeCount + 1 }

theorem ready_only (s : State) (r : ResultRecord) : Only [.cu, .free] s (s.ready r) :=
  (modCu_only s _).mono.trans (.free (by decide))

theorem completeConversion_unwired (unwired : ∀ ch, r.target ≠ .wired ch) (c : Conversion) (s : State) :
    Only [.cu] (takeResult r (s.ready r)) (completeConversion c r s) := by
  have none (t : State) : reportConverted r t = t ∧ latchWorkOf r.target t = t := by
    cases target : r.target with
    | wired ch => exact absurd target (unwired ch)
    | reference | supply =>
      unfold reportConverted
      rw [target]
      exact ⟨rfl, rfl⟩
  have taken : (s.stored r).takes c r = takeResult r (s.ready r) := by
    refine inFreeOrder_at (fun t => t = s.ready r) (fun t => t = takeResult r (s.ready r)) [] [_] rfl (fun v hv t => ?_)
      (fun _ t same => by rw [same]) nofun
    simp only [List.nil_append, List.mem_cons, Prod.mk.injEq, List.not_mem_nil, or_false] at hv
    rw [hv.2, (none t).1]
    exact ⟨id, id⟩
  rw [completeConversion_eq, (none _).2, taken]
  exact modCu_only _ _

/-- After it the CU alone moves on, unless a watch pass has ended. -/
theorem afterConversion_passOn (mode : s.sc.opState = .run ∨ s.sc.opState = .shutdown ∨
      (s.sc.opState = .parked ∧ s.cu.pos.following s.sc.watchSet.length ≠ .reference))
    (opState : t.sc.opState = s.sc.opState) (cu : t.cu = ({ s.cu.store r with inFlight := none } : ConvUnit).advance c.origin s.passList.length) :
    Only [.cu] t (afterConversion c.origin spent t) := by
  unfold afterConversion
  dsimp only
  split
  · exact chooseConversion_only t _ _
  next out =>
    have live : s.sc.opState ≠ .run ∧ s.sc.opState ≠ .shutdown := by
      rw [← not_or]
      unfold State.live at out
      rwa [opState] at out
    obtain ⟨parked, more⟩ := (mode.resolve_left live.1).resolve_left live.2
    rw [if_pos (by rw [opState, parked])]
    have going : (decide (c.origin = .pass) && decide (t.cu.pos = .reference)) = false := by
      cases origin : c.origin with
      | priority => rfl
      | pass =>
        have list : s.passList = s.sc.watchSet := if_pos parked
        have pos : t.cu.pos = s.cu.pos.following s.sc.watchSet.length := by
          rw [cu, origin, list, store_kept]
          exact next_eq_following _ _
        rw [pos, decide_eq_false more, Bool.and_false]
    rw [going, if_neg nofun]
    exact startElement_only t spent

theorem resultTaken (ends : s.gateEnds c spent) (unwired : ∀ ch, c.target ≠ .wired ch)
    (mode : s.sc.opState = .run ∨ s.sc.opState = .shutdown ∨
      (s.sc.opState = .parked ∧ s.cu.pos.following s.sc.watchSet.length ≠ .reference)) :
    ∃ u, exec (.conversionComplete periods pin bias) s = .next
      { takeResult (c.record periods pin bias) (s.ready (c.record periods pin bias)) with cu := u } := by
  have target : ∀ ch, (c.record periods pin bias).target ≠ .wired ch := unwired
  have first := completeConversion_unwired target c s
  have cu := completeConversion_armed (s := s) (c := c) (r := c.record periods pin bias) fun ch at_ => absurd at_ (target ch)
  have opState : (takeResult (c.record periods pin bias) (s.ready (c.record periods pin bias))).sc.opState = s.sc.opState :=
    ((ready_only s _).mono.trans (takeResult_only _ _).mono : Only (.cu :: interpParts) s _).opState
  have after := afterConversion_passOn (spent := spent) mode (first.opState.trans opState) cu
  rw [exec_conversionComplete ends]
  exact ⟨_, congrArg _ (first.trans after).eq_cu⟩

end

end Sys2Proof.Machine
end

section
/-! PROOFS. A REFERENCE result at the Channel Interpreter (R58 to R60, R71): the five ways of its judgement. -/

namespace Sys2Proof.Machine

set_option Elab.async false

section
variable {s x : State} {r : ResultRecord}

/-- The pass count and the judgement stored. -/
def State.judgedAs (x : State) (r : ResultRecord) (j : Judgement) : State :=
  x.modCi fun c => { c with passCount := some r.count, judgement := some j }

theorem judgedAs_only (x : State) (r : ResultRecord) (j : Judgement) : Only [.ci] x (x.judgedAs r j) := modCi_only x _

theorem referenceResult_good (good : x.ci.inWindow r.count ∧ r.saturated = false) :
    referenceResult r x = referenceGood r.count (x.judgedAs r .good) := by
  have flag : (decide (x.ci.inWindow r.count) && !r.saturated) = true := by
    rw [decide_eq_true good.1, good.2]
    rfl
  unfold referenceResult
  dsimp only
  rw [flag, if_pos rfl]
  rfl

theorem referenceResult_failed (bad : ¬ (x.ci.inWindow r.count ∧ r.saturated = false)) : referenceResult r x =
    if x.ci.failCount < 2 then referenceFailed r.count (x.judgedAs r .failed)
    else if x.ci.refFault then x.judgedAs r .failed
    else declareReferenceFault r.count (x.judgedAs r .failed) := by
  have flag : (decide (x.ci.inWindow r.count) && !r.saturated) = false := by
    rw [← Bool.not_eq_true, Bool.and_eq_true, decide_eq_true_eq, Bool.not_eq_true']
    exact bad
  unfold referenceResult
  dsimp only
  rw [flag, if_neg nofun]
  rfl

/-! ## The wired channels (R59, R60, R71) -/

/-- Every wired channel that a judgement of `s` reaches is changed (R71). -/
def State.eachJudged (s : State) (f : Wired → Wired) (t : State) : Prop :=
  ∀ ch : Fin 24, t.ci.wired[ch] =
    if s.ci.wired[ch].cfg.kind = .off ∨ (s.sc.opState = .parked ∧ ch ∉ s.sc.watchSet) then s.ci.wired[ch]
    else f s.ci.wired[ch]

theorem judges_iff (sc : x.sc = s.sc) (ch : Fin 24) :
    x.judges ch = false ↔ s.sc.opState = .parked ∧ ch ∉ s.sc.watchSet := by
  simp [State.judges, sc]

theorem mapWired_each (sc : x.sc = s.sc) {c : Interp} (wired : c.wired = s.ci.wired) {f g : Wired → Wired} (same : ∀ w, g w = f w)
    (ch : Fin 24) : (c.mapWired x.judges g).wired[ch] =
    if s.ci.wired[ch].cfg.kind = .off ∨ (s.sc.opState = .parked ∧ ch ∉ s.sc.watchSet) then s.ci.wired[ch]
    else f s.ci.wired[ch] := by
  rw [Interp.mapWired_get, wired, same]
  exact if_congr (or_congr Iff.rfl (judges_iff sc ch)) rfl rfl

/-- The presences of a judgement: the WIRING sources and the REFERENCE_FAULT. -/
theorem wiringPresences_hands (c : Interp) (p : Bool) : HandsPresences (c.wiringPresences ++ [(FaultSource.system 0, p)]) where
  source src q mem := by
    have named := wiringPresences_named c p (src, q) mem
    cases src
    case wiring | system => exact ⟨id, fun _ => id⟩
    all_goals exact absurd named id
  one src q q' hq hq' := by
    have value {q : Bool} (mem : (src, q) ∈ c.wiringPresences ++ [(FaultSource.system 0, p)]) :
        (∃ ch : Fin 24, src = .wiring ch ∧ q = c.wired[ch].wiring.present) ∨ (src = .system 0 ∧ q = p) := by
      rcases List.mem_append.1 mem with mem | mem
      · obtain ⟨ch, -, e⟩ := List.mem_map.1 mem
        obtain ⟨rfl, rfl⟩ := Prod.mk.inj e
        exact .inl ⟨ch, rfl, rfl⟩
      · exact .inr (Prod.mk.inj (List.mem_singleton.1 mem))
    rcases value hq with ⟨ch, rfl, rfl⟩ | ⟨rfl, rfl⟩
    · rcases value hq' with ⟨ch', same, rfl⟩ | ⟨same, -⟩
      · rw [FaultSource.wiring.inj same]
      · exact absurd same nofun
    · rcases value hq' with ⟨ch', same, -⟩ | ⟨-, rfl⟩
      · exact absurd same nofun
      · rfl

/-! ## The five ways -/

section
variable (ready : Only [.cu, .free] s x)
include ready

theorem judgedAs_ready (r : ResultRecord) (j : Judgement) : Only [.cu, .ci, .free] s (x.judgedAs r j) :=
  ready.mono.trans (judgedAs_only x r j).mono

theorem judgedAs_ci (r : ResultRecord) (j : Judgement) :
    (x.judgedAs r j).ci = { s.ci with passCount := some r.count, judgement := some j } := by
  show { x.ci with passCount := some r.count, judgement := some j } = _
  rw [ready.ci]

/-- GOOD, REFERENCE_FAULT not declared. -/
theorem referenceGood_sound (sound : s.ci.refFault = false) (n : Nat) :
    let t := referenceGood n (x.judgedAs r .good)
    s.HandedOn t ∧ t.ci = { s.ci with passCount := some r.count, judgement := some .good, failCount := 0 } ∧
      t.li = if s.ci.failCount = 0 then s.li else s.li.place .referenceGood 0 (val n) := by
  have ci := judgedAs_ci ready r .good
  have only := judgedAs_ready ready r .good
  unfold referenceGood
  dsimp only
  rw [if_neg (by rw [ci, sound]; nofun)]
  by_cases zero : s.ci.failCount = 0
  · rw [if_neg (not_not_intro (by rw [ci]; exact zero)), if_pos zero]
    have same : ({ s.ci with passCount := some r.count, judgement := some .good, failCount := 0 } : Interp) =
        { s.ci with passCount := some r.count, judgement := some .good } := by
      rw [← zero]
    refine ⟨.still only.mono (by rw [ci]; exact eff_congr rfl rfl) (by rw [ci]) (by rw [ci]) (by rw [ci]), ci.trans same.symm, only.li⟩
  · rw [if_pos (by rw [ci]; exact zero), if_neg zero]
    set y := (x.judgedAs r .good).modCi fun c => { c with failCount := 0 } with y_eq
    have ciY : y.ci = { s.ci with passCount := some r.count, judgement := some .good, failCount := 0 } := by
      show { (x.judgedAs r .good).ci with failCount := 0 } = _
      rw [ci]
    have all : Only [.reports, .cu, .ci, .free] s (report .referenceGood 0 (val n) y) :=
      (only.mono.trans (modCi_only _ _).mono).trans (report_only y _ _ _).mono
    refine ⟨.still all (by rw [report_ci, ciY]; exact eff_congr rfl rfl) (by rw [report_ci, ciY]) (by rw [report_ci, ciY])
      (by rw [report_ci, ciY]), ciY, ?_⟩
    show y.li.place _ _ _ = _
    rw [show y.li = s.li from only.li]

omit ready in
/-- A judgement that changes the wired channels, handed on. -/
theorem judgement_hands {z u : State} {before : Interp} {p : Option Nat} {j : Option Judgement} {fail : Nat} {all fault : Bool}
    {f g : Wired → Wired} {faults : List (FaultSource × Bool)} (only : Only [.reports, .cu, .ci, .free] s z)
    (ci : z.ci = { s.ci with passCount := p, judgement := j }) (moved : Only [.reports, .ci] z u)
    (ciU : u.ci = { z.ci.mapWired z.judges g with refFault := fault, failCount := fail }) (same : ∀ w, g w = f w)
    (eff : before.eff = s.ci.eff) (all_iff : all = true ↔ s.ci.refFault ≠ fault) (hands : HandsPresences faults) :
    let t := handChannels before all faults [] u
    s.HandedOn t ∧ s.eachJudged f t ∧
      t.ci = { s.ci with passCount := p, judgement := j, failCount := fail, refFault := fault, wired := t.ci.wired } ∧
      ∀ src b, (src, b) ∈ faults → t.fm.present src = b := by
  have wired : u.ci.wired = (z.ci.mapWired z.judges g).wired := by rw [ciU]
  have key (c : Interp) (w : Vector Wired 24) (h : c = { s.ci with passCount := p, judgement := j }) :
      ({ c with wired := w, refFault := fault, failCount := fail } : Interp) =
        { s.ci with passCount := p, judgement := j, failCount := fail, refFault := fault, wired := w } := by rw [h]
  have frame : u.ci = { s.ci with
      passCount := p, judgement := j, failCount := fail, refFault := fault, wired := u.ci.wired } := by
    rw [wired, ciU]
    exact key z.ci _ ci
  obtain ⟨handed, sameCi, presences⟩ := handChannels_handsOn (before := before) (all := all) (faults := faults)
    (only.trans moved.mono) eff (by rw [frame]; exact all_iff) (by rw [frame]) (by rw [frame]) hands
  have each := mapWired_each (s := s) (x := z) only.sc (c := z.ci) (by rw [ci]) same
  refine ⟨handed, fun ch => ?_, ?_, presences⟩
  · rw [sameCi, wired]
    exact each ch
  · rw [sameCi]
    exact frame

/-- GOOD, REFERENCE_FAULT declared: it ends, and the channels begin again. -/
theorem referenceGood_ends (fault : s.ci.refFault = true) (n : Nat) :
    let t := referenceGood n (x.judgedAs r .good)
    s.HandedOn t ∧ s.eachJudged Wired.restart t ∧ t.fm.present (.system 0) = false ∧
      t.ci = { s.ci with
        passCount := some r.count, judgement := some .good, failCount := 0, refFault := false, wired := t.ci.wired } := by
  have ci := judgedAs_ci ready r .good
  unfold referenceGood
  dsimp only
  rw [if_pos (by rw [ci]; exact fault)]
  set z := x.judgedAs r .good with z_eq
  set y := z.modCi fun c => { c.mapWired z.judges Wired.restart with refFault := false, failCount := 0 } with y_eq
  obtain ⟨handed, each, frame, presences⟩ := judgement_hands (s := s) (z := z) (u := report .referenceGood 0 (val n) y)
    (before := z.ci) (all := true) (f := Wired.restart) (faults := y.ci.wiringPresences ++ [(.system 0, false)])
    (judgedAs_ready ready r .good).mono ci ((modCi_only z _).mono.trans (report_only y _ _ _).mono) rfl (fun _ => rfl)
    (by rw [ci]; exact eff_congr rfl rfl) (by rw [fault]; decide) (wiringPresences_hands _ _)
  exact ⟨handed, each, presences _ _ (List.mem_append_right _ (List.mem_singleton_self _)), frame⟩

/-- FAILED for the first or second time. -/
theorem referenceFailed_holds (n : Nat) :
    let t := referenceFailed n (x.judgedAs r .failed)
    s.HandedOn t ∧ s.eachJudged (fun w => { w with status := if w.status = .valid then .held else w.status }) t ∧
      t.ci = { s.ci with
        passCount := some r.count, judgement := some .failed, failCount := s.ci.failCount + 1, wired := t.ci.wired } := by
  have ci := judgedAs_ci ready r .failed
  unfold referenceFailed
  dsimp only
  set z := x.judgedAs r .failed with z_eq
  set y := if z.ci.failCount = 0 then report .referenceFailed 0 (val n) z else z with y_eq
  have reported : Only [.reports] z y := .ite (report_only z _ _ _) (.refl _ _)
  have ciY : y.ci = { s.ci with passCount := some r.count, judgement := some .failed } := reported.ci.trans ci
  obtain ⟨handed, each, frame, -⟩ := judgement_hands (s := s) (z := y)
    (u := y.modCi fun c => { c.mapWired y.judges (fun w => if w.status = .valid then { w with status := .held } else w) with
      failCount := c.failCount + 1 })
    (before := z.ci) (all := false) (fault := s.ci.refFault) (fail := s.ci.failCount + 1)
    (f := fun w => { w with status := if w.status = .valid then .held else w.status }) (faults := [])
    ((judgedAs_ready ready r .failed).mono.trans reported.mono) ciY (modCi_only y _).mono (by
      show { y.ci.mapWired _ _ with failCount := y.ci.failCount + 1 } = ({ y.ci.mapWired _ _ with
        refFault := s.ci.refFault, failCount := s.ci.failCount + 1 } : Interp)
      have counts : y.ci.failCount = s.ci.failCount ∧ y.ci.refFault = s.ci.refFault := by
        rw [ciY]
        exact ⟨rfl, rfl⟩
      rw [← counts.1, ← counts.2]
      rfl)
    (fun w => by split <;> rfl) (by rw [ci]; exact eff_congr rfl rfl) (by simp) ⟨nofun, nofun⟩
  exact ⟨handed, each, frame⟩

/-- FAILED for the third time: REFERENCE_FAULT is declared. -/
theorem referenceFault_declared (sound : s.ci.refFault = false) (n : Nat) :
    let t := declareReferenceFault n (x.judgedAs r .failed)
    s.HandedOn t ∧ s.eachJudged (fun w => { w with status := .fault, wiring := .undetermined }) t ∧
      t.fm.present (.system 0) = true ∧
      (∀ ch : Fin 24, s.ci.wired[ch].cfg.kind ≠ .off → s.sc.opState ≠ .parked ∨ ch ∈ s.sc.watchSet →
        t.fm.present (.wiring ch) = false) ∧
      t.ci = { s.ci with
        passCount := some r.count, judgement := some .failed, failCount := 3, refFault := true, wired := t.ci.wired } := by
  have ci := judgedAs_ci ready r .failed
  unfold declareReferenceFault
  dsimp only
  set z := x.judgedAs r .failed with z_eq
  set y := z.modCi fun c => { c.mapWired z.judges (fun w => { w with status := .fault, wiring := .undetermined }) with
    refFault := true, failCount := 3 } with y_eq
  obtain ⟨handed, each, frame, presences⟩ := judgement_hands (s := s) (z := z) (u := report .referenceFault 0 (val n) y)
    (before := z.ci) (all := true) (f := fun w => { w with status := .fault, wiring := .undetermined })
    (faults := y.ci.wiringPresences ++ [(.system 0, true)])
    (judgedAs_ready ready r .failed).mono ci ((modCi_only z _).mono.trans (report_only y _ _ _).mono) rfl (fun _ => rfl)
    (by rw [ci]; exact eff_congr rfl rfl) (by rw [sound]; decide) (wiringPresences_hands _ _)
  refine ⟨handed, each, presences _ _ (List.mem_append_right _ (List.mem_singleton_self _)), fun ch on reached => ?_, frame⟩
  refine presences (.wiring ch) false (List.mem_append_left _ (List.mem_map.2 ⟨ch, List.mem_finRange ch, ?_⟩))
  have changed := mapWired_each (s := s) (x := z) ((judgedAs_ready ready r .failed).sc) (c := z.ci) (by rw [ci])
    (f := fun w => { w with status := .fault, wiring := .undetermined }) (fun _ => rfl) ch
  rw [if_neg (by
    rintro (off | ⟨parked, outside⟩)
    · exact on off
    · exact reached.elim (fun k => k parked) outside)] at changed
  have wired : y.ci.wired[ch] = { s.ci.wired[ch] with status := .fault, wiring := .undetermined } := changed
  rw [wired]
  rfl

end

end

end Sys2Proof.Machine
end

section
/-! PROOFS. A change of the supply state at the gauges and the FM (R61, R84, R85). -/

namespace Sys2Proof.Machine

set_option Elab.async false

/-! ## One gauge held or resumed -/

/-- A gauge as the fall of the supply leaves it (R84). -/
def Gauge.held (x : Gauge) : Gauge :=
  if x.pointer.driven then { x with resume := some x.pointer, updateMs := 0, pointer := .hold } else x

/-- The restart count of a homing that begins again (R85). -/
def Gauge.again (x : Gauge) : Nat := min 255 (x.restarts + 1)

/-- A homing from its beginning, counted where the gauge had homed (R85). -/
def Gauge.homesAgain (x : Gauge) (r : GaugeRec) : Gauge :=
  { x with pointer := .homing, resume := none, updateMs := 0, pos := r.span, homingPhase := .countdown
           stopPulses := r.span / 8, homed := true, restarts := if x.homed then x.again else x.restarts }

section
variable {s t x : State} {g j : Fin 8}

theorem setPointer_ge (g : Fin 8) (st : PointerState) (t : State) :
    (setPointer g st t).ge = vmod t.ge g fun y => { y with pointer := st } := rfl

theorem holdGauge_ge (g : Fin 8) (t : State) : (holdGauge g t).ge = vmod t.ge g Gauge.held := by
  unfold holdGauge
  split
  next driven =>
    rw [setPointer_ge, State.modGauge_ge, vmod_vmod]
    exact vmod_congr (if_pos driven).symm
  next rests => exact (vmod_eq_self (if_neg rests)).symm

theorem held_pointer {y : Gauge} (powered : y.pointer ≠ .unpowered) : y.held.pointer = .hold := by
  unfold Gauge.held
  cases state : y.pointer with
  | unpowered => exact absurd state powered
  | hold => exact state
  | homing | sweep | tracking | test | parking => rfl

/-- A gauge that is not in HOLD is not returned. -/
theorem resumeGauge_rests (rests : t.ge[g].pointer ≠ .hold) : resumeGauge g t = t := by
  unfold resumeGauge
  split
  next held _ => exact absurd held rests
  next held _ => exact absurd held rests
  next => rfl

/-- A gauge in HOLD returns to its resume state. -/
theorem resumeGauge_returns {st : PointerState} (held : t.ge[g].pointer = .hold) (resume : t.ge[g].resume = some st)
    (other : st ≠ .homing) : (resumeGauge g t).ge = vmod t.ge g (fun y => { y with pointer := st, resume := none, updateMs := 0 }) ∧
    (resumeGauge g t).fm = t.fm := by
  have e : resumeGauge g t = setPointer g st (t.modGauge g fun y => { y with resume := none, updateMs := 0 }) := by
    unfold resumeGauge
    rw [held, resume]
    cases st with
    | homing => exact absurd rfl other
    | unpowered | sweep | tracking | test | hold | parking => rfl
  rw [e]
  rw [setPointer_ge, State.modGauge_ge, vmod_vmod]
  exact ⟨rfl, rfl⟩

/-- A homing in HOLD begins again, counted and at the third handed to the FM. -/
theorem resumeGauge_homes {r : GaugeRec} (held : t.ge[g].pointer = .hold) (resume : t.ge[g].resume = some .homing)
    (record : t.ge[g].record = some r) : (resumeGauge g t).ge = vmod t.ge g (·.homesAgain r) ∧
    (resumeGauge g t).fm.present (.gauge g) =
      (t.fm.present (.gauge g) || (t.ge[g].homed && decide (3 ≤ t.ge[g].again))) ∧
    FaultsGrow (· = .gauge g) t (resumeGauge g t) := by
  set counted := if t.ge[g].homed then
    report .homingRestart g.val (val t.ge[g].again) (t.modGauge g fun y => { y with restarts := t.ge[g].again }) else t
    with counted_eq
  set begun := counted.modGauge g fun y => { y.homingStart r with resume := none, updateMs := 0 } with begun_eq
  have e : resumeGauge g t = inFreeOrder [(true, setPointer g .homing),
      (t.ge[g].homed && decide (3 ≤ t.ge[g].again), setPresence (.gauge g) true)] begun := by
    unfold resumeGauge
    rw [held, resume]
    dsimp only
    rw [record]
    rfl
  have countedGe : counted.ge = vmod t.ge g fun y => { y with restarts := if t.ge[g].homed then t.ge[g].again else y.restarts } := by
    rw [counted_eq]
    split
    · rfl
    · exact (vmod_eq_self rfl).symm
  have fm : begun.fm = t.fm := by
    show counted.fm = t.fm
    rw [counted_eq]
    split <;> rfl
  have ge : vmod begun.ge g (fun y => { y with pointer := .homing }) = vmod t.ge g (·.homesAgain r) := by
    rw [begun_eq, State.modGauge_ge, countedGe, vmod_vmod, vmod_vmod]
    exact vmod_congr rfl
  rw [e]
  refine ⟨?_, ?_, ?_⟩
  · rw [← ge]
    refine inFreeOrder_at (fun v => v.ge = begun.ge) (fun v => v.ge = vmod begun.ge g fun y => { y with pointer := .homing }) [] [_]
      rfl (fun f hf v => ?_) (fun _ v same => by rw [setPointer_ge, same]) nofun
    simp only [List.nil_append, List.mem_cons, Prod.mk.injEq, List.not_mem_nil, or_false] at hf
    rw [hf.2, (setPresence_only v _ _).ge]
    exact ⟨id, id⟩
  · refine inFreeOrder_at (fun v => v.fm.present (.gauge g) = t.fm.present (.gauge g))
      (fun v => v.fm.present (.gauge g) = (t.fm.present (.gauge g) || (t.ge[g].homed && decide (3 ≤ t.ge[g].again)))) [_] []
      (congrArg (·.present (.gauge g)) fm) (fun f hf v => ?_) (fun on v _ => ?_) (fun off v same => ?_)
    · simp only [List.append_nil, List.mem_cons, Prod.mk.injEq, List.not_mem_nil, or_false] at hf
      rw [hf.2]
      exact ⟨id, id⟩
    · rw [on, Bool.or_true]
      exact setPresence_present _ _ v
    · rw [off, Bool.or_false, same]
  · refine inFreeOrder_induct (FaultsGrow (· = .gauge g) t) (.ofFm fm) fun f hf v h => h.trans ?_
    simp only [List.mem_cons, Prod.mk.injEq, List.not_mem_nil, or_false] at hf
    rcases hf with ⟨-, rfl⟩ | ⟨-, rfl⟩
    · exact .ofFm rfl
    · exact setPresence_grows _ _ v

/-- A gauge's return leaves the other gauges and their sources. -/
theorem resumeGauge_others (j : Fin 8) (t : State) : (∀ g, j ≠ g → (resumeGauge j t).ge[g] = t.ge[g]) ∧
    FaultsGrow (· = .gauge j) t (resumeGauge j t) := by
  have rests (e : resumeGauge j t = t) : (∀ g, j ≠ g → (resumeGauge j t).ge[g] = t.ge[g]) ∧
      FaultsGrow (· = .gauge j) t (resumeGauge j t) := by
    rw [e]
    exact ⟨fun _ _ => rfl, .refl _ t⟩
  by_cases held : t.ge[j].pointer = .hold
  · cases resume : t.ge[j].resume with
    | none =>
      refine rests ?_
      unfold resumeGauge
      rw [held, resume]
    | some st =>
      by_cases homing : st = .homing
      · subst homing
        cases record : t.ge[j].record with
        | none =>
          refine rests ?_
          unfold resumeGauge
          rw [held, resume]
          dsimp only
          rw [record]
        | some r =>
          obtain ⟨ge, -, grows⟩ := resumeGauge_homes held resume record
          exact ⟨fun g ne => by rw [ge, vmod_ne _ _ ne], grows⟩
      · obtain ⟨ge, fm⟩ := resumeGauge_returns held resume homing
        exact ⟨fun g ne => by rw [ge, vmod_ne _ _ ne], .ofFm fm⟩
  · exact rests (resumeGauge_rests held)

/-! ## What the warnings' work leaves of a gauge (R185) -/

theorem endsTest_of {y : Gauge} (noTest : y.pointer ≠ .test) (noResume : y.resume ≠ some .test) : y.endsTest = y := by
  have off : ¬ y.testing = true := by simp [Gauge.testing, noTest, noResume]
  rw [Gauge.endsTest, if_neg noTest, if_neg off]

/-- A gauge keeps, through the warnings' work, what the end of a test leaves of it; without a session, everything. -/
theorem gauge_work (s : State) (g : Fin 8) (K : Gauge → Prop) (ends : s.sc.service = true → ∀ y, K y → K y.endsTest) :
    WarnWork fun t => t.sc.service = s.sc.service ∧ K t.ge[g] where
  quiet only h := ⟨only.service.trans h.1, by rw [only.ge]; exact h.2⟩
  list t h := ⟨(takeList_only t).service.trans h.1, by rw [(takeList_only t).ge]; exact h.2⟩
  stop t h := by
    refine ⟨(stopActivation_only t).service.trans h.1, ?_⟩
    cases open_ : s.sc.service with
    | false =>
      have rests : stopActivation t = t := if_neg (by rw [h.1, open_]; nofun)
      rw [rests]
      exact h.2
    | true =>
      rcases stopActivation_ge t with same | ended
      · rw [same]
        exact h.2
      · rw [ended, vmap_get]
        exact ends open_ _ h.2

end

end Sys2Proof.Machine
end

section
/-! PROOFS. REFERENCE and SUPPLY results (O50; R58 to R61, R71, R84, R85). -/

namespace Sys2Proof.Machine

set_option Elab.async false

section
variable {s t x y : State} {g : Fin 8}

/-! ## The supply state (R61) -/

theorem supply_after (before : SupplyState) (mv : Nat) : before.after mv =
    if mv < 16000 then .low else if 32000 < mv then .high
    else if before = .low ∧ mv < 17000 then .low else if before = .high ∧ 31000 < mv then .high else .normal := by
  cases before <;> simp only [SupplyState.after, true_and, false_and, reduceCtorEq, if_false] <;> split_ifs <;>
    first | rfl | omega

/-- The presences that a supply state hands. -/
abbrev supplyPresences (after : SupplyState) : List (FaultSource × Bool) :=
  [(.system 1, decide (after = .low)), (.system 2, decide (after = .high))]

/-- The supply measured and stored, before its change is handed on. -/
def State.supplied (x : State) (mv : Nat) (after : SupplyState) : State :=
  x.modCi fun c => { c with supplyMv := some mv, supply := after }

theorem supplyResult_eq (r : ResultRecord) (x : State) :
    let mv := min 60000 (r.count * 4)
    let after := x.ci.supply.after mv
    supplyResult r x =
      if after = x.ci.supply then x.supplied mv after
      else inFreeOrder
        [(decide (after = .low) || decide (x.ci.supply = .low), gaugesTakeSupply x.ci.supply),
         (decide x.inRun, handSupplyToWm), (true, handPresences (supplyPresences after))]
        (report .supply 0 (val mv) (x.supplied mv after)) := rfl

/-- What holds before a change of the supply reaches the gauges, and after. -/
theorem supply_at (P Q : State → Prop) {b run : Bool} {before : SupplyState} {faults : List (FaultSource × Bool)}
    (start : P { y with freeCount := y.freeCount + 1 }) (warns : ∀ t, (P t → P (handSupplyToWm t)) ∧ (Q t → Q (handSupplyToWm t)))
    (hands : ∀ t, (P t → P (handPresences faults t)) ∧ (Q t → Q (handPresences faults t))) (on : b = true)
    (here : ∀ t, P t → Q (gaugesTakeSupply before t)) :
    Q (inFreeOrder [(b, gaugesTakeSupply before), (run, handSupplyToWm), (true, handPresences faults)] y) := by
  refine inFreeOrder_at P Q [] [_, _] start (fun v hv t => ?_) (fun _ t => here t) fun off => absurd (on.symm.trans off) nofun
  simp only [List.nil_append, List.mem_cons, Prod.mk.injEq, List.not_mem_nil, or_false] at hv
  rcases hv with ⟨-, rfl⟩ | ⟨-, rfl⟩
  · exact warns t
  · exact hands t

/-- A property of one gauge, kept by the warnings' work before and after its own turn. -/
theorem supply_gauge (K L : Gauge → Prop) {b run : Bool} {before : SupplyState} {faults : List (FaultSource × Bool)}
    (ge : y.ge = s.ge) (sc : y.sc = s.sc) (ci : y.ci.supply = x.ci.supply)
    (endsK : s.sc.service = true → ∀ z, K z → K z.endsTest) (endsL : s.sc.service = true → ∀ z, L z → L z.endsTest)
    (start : K s.ge[g]) (on : b = true)
    (here : ∀ t, t.ci.supply = x.ci.supply → K t.ge[g] → L (gaugesTakeSupply before t).ge[g]) :
    L (inFreeOrder [(b, gaugesTakeSupply before), (run, handSupplyToWm), (true, handPresences faults)] y).ge[g] := by
  have workK := gauge_work s g K endsK
  have workL := gauge_work s g L endsL
  have quiet {P : State → Prop} (work : WarnWork P) (t : State) : P t → P (handPresences faults t) :=
    work.quiet (handPresences_only t _).mono
  refine (supply_at (fun t => t.ci.supply = x.ci.supply ∧ t.sc.service = s.sc.service ∧ K t.ge[g])
    (fun t => t.sc.service = s.sc.service ∧ L t.ge[g]) ⟨ci, by rw [← sc], by rw [← ge] at start; exact start⟩ (fun t => ⟨?_, workL.handSupplyToWm⟩)
    (fun t => ⟨?_, quiet workL t⟩) on fun t => ?_).2
  · rintro ⟨supply, k⟩
    exact ⟨(congrArg Interp.supply (handSupplyToWm_only t).ci).trans supply, workK.handSupplyToWm k⟩
  · rintro ⟨supply, k⟩
    exact ⟨(congrArg Interp.supply (handPresences_only t _).ci).trans supply, quiet workK t k⟩
  · rintro ⟨supply, service, k⟩
    exact ⟨(gaugesTakeSupply_only t before).service.trans service, here t supply k⟩

/-! ## The gauges (R84, R85) -/

theorem endsTest_pointer (z : Gauge) : z.endsTest.pointer = if z.pointer = .test then .tracking else z.pointer := by
  unfold Gauge.endsTest
  split
  · rfl
  · split <;> rfl

/-- The fall of the supply holds a powered gauge. -/
theorem falls_hold {before : SupplyState} (low : t.ci.supply = .low) (powered : t.ge[g].pointer ≠ .unpowered) :
    (gaugesTakeSupply before t).ge[g].pointer = .hold := by
  have e : gaugesTakeSupply before t = forEach holdGauge t := if_pos low
  have others (P : Gauge → Prop) (j : Fin 8) (ne : j ≠ g) (v : State) : P v.ge[g] → P (holdGauge j v).ge[g] := by
    rw [holdGauge_ge, vmod_ne _ _ ne]
    exact id
  rw [e]
  refine forEach_at (fun v => v.ge[g].pointer ≠ .unpowered) (fun v => v.ge[g].pointer = .hold) g powered
    (others (·.pointer ≠ .unpowered)) (fun v on => ?_) (others (·.pointer = .hold))
  rw [holdGauge_ge, vmod_self]
  exact held_pointer on

/-- The return of the supply at one gauge, by its own turn. -/
theorem rises_return {K L : Gauge → Prop} (up : t.ci.supply ≠ .low) (start : K t.ge[g])
    (turn : ∀ v : State, K v.ge[g] → L (resumeGauge g v).ge[g]) : L (gaugesTakeSupply .low t).ge[g] := by
  have e : gaugesTakeSupply .low t = forEach resumeGauge t := (if_neg up).trans (if_pos rfl)
  have others (P : Gauge → Prop) (j : Fin 8) (ne : j ≠ g) (v : State) : P v.ge[g] → P (resumeGauge j v).ge[g] := by
    rw [(resumeGauge_others j v).1 g ne]
    exact id
  rw [e]
  exact forEach_at (fun v => K v.ge[g]) (fun v => L v.ge[g]) g start (others K) turn (others L)

/-- What the FM has of the gauge after the return of the supply. -/
theorem rises_count {z : Gauge} {r : GaugeRec} {old : Bool} (up : t.ci.supply ≠ .low) (held : z.pointer = .hold)
    (resume : z.resume = some .homing) (record : z.record = some r) (start : t.ge[g] = z ∧ t.fm.present (.gauge g) = old) :
    (gaugesTakeSupply .low t).fm.present (.gauge g) = (old || (z.homed && decide (3 ≤ z.again))) := by
  have e : gaugesTakeSupply .low t = forEach resumeGauge t := (if_neg up).trans (if_pos rfl)
  have others (j : Fin 8) (ne : j ≠ g) (v : State) : (resumeGauge j v).ge[g] = v.ge[g] ∧
      (resumeGauge j v).fm.present (.gauge g) = v.fm.present (.gauge g) := by
    obtain ⟨ge, grows⟩ := resumeGauge_others j v
    exact ⟨ge g ne, grows.present _ fun same => ne (FaultSource.gauge.inj same).symm⟩
  rw [e]
  refine forEach_at (fun v => v.ge[g] = z ∧ v.fm.present (.gauge g) = old)
    (fun v => v.fm.present (.gauge g) = (old || (z.homed && decide (3 ≤ z.again)))) g start (fun j ne v k => ?_) (fun v k => ?_)
    fun j ne v k => ?_
  · obtain ⟨ge, present⟩ := others j ne v
    exact ⟨ge.trans k.1, present.trans k.2⟩
  · obtain ⟨-, present, -⟩ := resumeGauge_homes (t := v) (g := g) (r := r) (by rw [k.1, held]) (by rw [k.1, resume]) (by rw [k.1, record])
    rw [present, k.1, k.2]
  · exact (others j ne v).2.trans k

theorem gaugesTakeSupply_grows (before : SupplyState) (t : State) (n : Fin 3) :
    (gaugesTakeSupply before t).fm.present (.system n) = t.fm.present (.system n) := by
  unfold gaugesTakeSupply
  split
  · refine forEach_induct (fun v => v.fm.present (.system n) = t.fm.present (.system n)) _ _ rfl fun j v k => ?_
    rwa [(holdGauge_only v j).fm]
  · split
    · refine forEach_induct (fun v => v.fm.present (.system n) = t.fm.present (.system n)) _ _ rfl fun j v k => ?_
      exact ((resumeGauge_others j v).2.present (.system n) nofun).trans k
    · rfl

/-- The return of the supply at one gauge, among the warnings' work. -/
theorem supply_rises (K L : Gauge → Prop) {after : SupplyState} {b run : Bool} {faults : List (FaultSource × Bool)}
    (only : Only [.reports, .cu, .ci, .free] s y) (supply : y.ci.supply = after) (up : after ≠ .low)
    (endsK : s.sc.service = true → ∀ z, K z → K z.endsTest) (endsL : s.sc.service = true → ∀ z, L z → L z.endsTest)
    (start : K s.ge[g]) (on : b = true) (turn : ∀ v : State, K v.ge[g] → L (resumeGauge g v).ge[g]) :
    L (inFreeOrder [(b, gaugesTakeSupply .low), (run, handSupplyToWm), (true, handPresences faults)] y).ge[g] :=
  supply_gauge (s := s) (x := y) K L only.ge only.sc rfl endsK endsL start on fun _ same k =>
    rises_return (K := K) (L := L) (by rw [same, supply]; exact up) k turn

/-! ## A changed supply state handed on -/

/-- The gauges and the FM after a change of the supply state. -/
structure State.SupplyMoves (s t : State) (before after : SupplyState) : Prop where
  low   : t.fm.present (.system 1) = decide (after = .low)
  high  : t.fm.present (.system 2) = decide (after = .high)
  falls : after = .low → ∀ g : Fin 8, s.ge[g].pointer ≠ .unpowered → t.ge[g].pointer = .hold
  stays : before = .low → after ≠ .low → ∀ g : Fin 8, s.ge[g].pointer ≠ .hold → s.sc.service = false → t.ge[g] = s.ge[g]
  back  : before = .low → after ≠ .low → ∀ (g : Fin 8) (st : PointerState), s.ge[g].pointer = .hold →
    s.ge[g].resume = some st → st ≠ .homing → st ≠ .test ∨ s.sc.service = false →
    t.ge[g] = { s.ge[g] with pointer := st, resume := none, updateMs := 0 }
  test  : before = .low → after ≠ .low → ∀ g : Fin 8, s.ge[g].pointer = .hold → s.ge[g].resume = some .test →
    t.ge[g].pos = s.ge[g].pos ∧ t.ge[g].resume = none ∧ t.ge[g].updateMs = 0 ∧
      (t.ge[g].pointer = .test ∨ t.ge[g].pointer = .tracking)
  homes : before = .low → after ≠ .low → ∀ (g : Fin 8) (r : GaugeRec), s.ge[g].pointer = .hold →
    s.ge[g].resume = some .homing → s.ge[g].record = some r → t.ge[g] = s.ge[g].homesAgain r ∧
      t.fm.present (.gauge g) = (s.fm.present (.gauge g) || (s.ge[g].homed && decide (3 ≤ s.ge[g].again)))

theorem supply_moves {before after : SupplyState} {run : Bool} (only : Only [.reports, .cu, .ci, .free] s y)
    (supply : y.ci.supply = after) : s.SupplyMoves
    (inFreeOrder [(decide (after = .low) || decide (before = .low), gaugesTakeSupply before), (run, handSupplyToWm),
      (true, handPresences (supplyPresences after))] y) before after := by
  have warns (n : FaultSource) (door : ¬ warningSource n) (v : State) : (handSupplyToWm v).fm.present n = v.fm.present n :=
    (handed_grows Condition.readsSupply false (fun w => { w with supply := v.ci.supply }) v).present n door
  have presence (n : Fin 3) (p : Bool) (mem : (FaultSource.system n, p) ∈ supplyPresences after) :
      (inFreeOrder [(decide (after = .low) || decide (before = .low), gaugesTakeSupply before), (run, handSupplyToWm),
        (true, handPresences (supplyPresences after))] y).fm.present (.system n) = p := by
    refine inFreeOrder_at (fun _ => True) (fun v => v.fm.present (.system n) = p) [_, _] [] trivial
      (fun f hf v => ⟨fun _ => trivial, fun k => ?_⟩) (fun _ v _ => ?_) nofun
    · simp only [List.cons_append, List.nil_append, List.mem_cons, Prod.mk.injEq, List.not_mem_nil, or_false] at hf
      rcases hf with ⟨-, rfl⟩ | ⟨-, rfl⟩
      · rwa [gaugesTakeSupply_grows]
      · rwa [warns _ id]
    · refine handPresences_present (fun q hq => ?_) (.inl mem)
      simp only [supplyPresences, List.mem_cons, Prod.mk.injEq, FaultSource.system.injEq, List.not_mem_nil, or_false] at mem hq
      rcases mem with ⟨rfl, rfl⟩ | ⟨rfl, rfl⟩ <;> simpa using hq
  have turns (on : before = .low) : (decide (after = .low) || decide (before = .low)) = true := by
    rw [decide_eq_true on, Bool.or_true]
  have fixed {z : Gauge} {P : Gauge → Prop} (same : z.endsTest = z) (is : ∀ w, P w ↔ w = z) : ∀ w, P w → P w.endsTest :=
    fun w hw => by rw [(is w).1 hw, same]; exact (is z).2 rfl
  refine ⟨presence 1 _ List.mem_cons_self, presence 2 _ (List.mem_cons_of_mem _ List.mem_cons_self), fun low g powered => ?_,
    fun rose up g rests closed => ?_, fun rose up g st held resume other quiet => ?_, fun rose up g held resume => ?_,
    fun rose up g r held resume record => ?_⟩
  · refine supply_gauge (s := s) (x := y) (·.pointer ≠ .unpowered) (·.pointer = .hold) only.ge only.sc rfl (fun _ z k => ?_) (fun _ z k => ?_)
      powered (by rw [low]; rfl) fun t same k => falls_hold (by rw [same, supply, low]) k
    · rw [endsTest_pointer]
      split
      · nofun
      · exact k
    · rw [endsTest_pointer, k]
      rfl
  · subst rose
    refine supply_rises (· = s.ge[g]) (· = s.ge[g]) only supply up (fun open_ => absurd (closed.symm.trans open_) nofun)
      (fun open_ => absurd (closed.symm.trans open_) nofun) rfl (turns rfl) fun v kv => ?_
    rw [resumeGauge_rests (by rw [kv]; exact rests)]
    exact kv
  · subst rose
    refine supply_rises (· = s.ge[g]) (· = { s.ge[g] with pointer := st, resume := none, updateMs := 0 }) only supply up
      (fun open_ => ?_) (fun open_ => ?_) rfl (turns rfl) fun v kv => ?_
    · have notTest : st ≠ .test := quiet.resolve_right fun closed => absurd (closed.symm.trans open_) nofun
      refine fixed (endsTest_of (by rw [held]; nofun) ?_) fun _ => Iff.rfl
      rw [resume]
      exact fun e => notTest (Option.some.inj e)
    · have notTest : st ≠ .test := quiet.resolve_right fun closed => absurd (closed.symm.trans open_) nofun
      exact fixed (endsTest_of notTest (show (none : Option PointerState) ≠ some .test from nofun)) fun _ => Iff.rfl
    · obtain ⟨ge, -⟩ := resumeGauge_returns (t := v) (g := g) (st := st) (by rw [kv, held]) (by rw [kv, resume]) other
      rw [ge, vmod_self, kv]
  · subst rose
    refine supply_rises
      (fun z => z.pos = s.ge[g].pos ∧ z.pointer = .hold ∧ (z.resume = some .test ∨ z.resume = some .tracking))
      (fun z => z.pos = s.ge[g].pos ∧ z.resume = none ∧ z.updateMs = 0 ∧ (z.pointer = .test ∨ z.pointer = .tracking))
      only supply up (fun _ z k => ?_) (fun _ z k => ?_) ⟨rfl, held, .inl resume⟩ (turns rfl) fun v kv => ?_
    · obtain ⟨pos, hold, k⟩ := k
      refine ⟨(endsTest_pos z).trans pos, by rw [endsTest_pointer, hold]; rfl, ?_⟩
      unfold Gauge.endsTest
      rw [if_neg (by rw [hold]; nofun)]
      split
      · exact .inr rfl
      · exact k
    · obtain ⟨pos, none, ms, k⟩ := k
      unfold Gauge.endsTest
      split
      · exact ⟨pos, none, ms, .inr rfl⟩
      next notTest =>
        rw [if_neg (by simp [Gauge.testing, notTest, none])]
        exact ⟨pos, none, ms, k⟩
    · obtain ⟨pos, hold, k⟩ := kv
      have returned (st : PointerState) (is : v.ge[g].resume = some st) (other : st ≠ .homing) (test : st = .test ∨ st = .tracking) :
          (resumeGauge g v).ge[g].pos = s.ge[g].pos ∧ (resumeGauge g v).ge[g].resume = none ∧ (resumeGauge g v).ge[g].updateMs = 0 ∧
            ((resumeGauge g v).ge[g].pointer = .test ∨ (resumeGauge g v).ge[g].pointer = .tracking) := by
        rw [(resumeGauge_returns hold is other).1, vmod_self]
        exact ⟨pos, rfl, rfl, test⟩
      rcases k with is | is
      · exact returned .test is nofun (.inl rfl)
      · exact returned .tracking is nofun (.inr rfl)
  · subst rose
    have unmoved : s.ge[g].endsTest = s.ge[g] := endsTest_of (by rw [held]; nofun) (by rw [resume]; nofun)
    refine ⟨?_, ?_⟩
    · have begun : (s.ge[g].homesAgain r).endsTest = s.ge[g].homesAgain r :=
        endsTest_of (show PointerState.homing ≠ .test from nofun) (show (none : Option PointerState) ≠ some .test from nofun)
      refine supply_rises (· = s.ge[g]) (· = s.ge[g].homesAgain r) only supply up (fun _ => fixed unmoved fun _ => Iff.rfl)
        (fun _ => fixed begun fun _ => Iff.rfl) rfl (turns rfl) fun v kv => ?_
      obtain ⟨ge, -⟩ := resumeGauge_homes (t := v) (g := g) (r := r) (by rw [kv, held]) (by rw [kv, resume]) (by rw [kv, record])
      rw [ge, vmod_self, kv]
    · have work := gauge_work s g (· = s.ge[g]) fun _ => fixed unmoved fun _ => Iff.rfl
      have keeps (v : State) : (handPresences (supplyPresences after) v).fm.present (.gauge g) = v.fm.present (.gauge g) :=
        (handPresences_grows _ v (fun src => ∃ n, src = .system n) fun p hp => by
          simp only [supplyPresences, List.mem_cons, List.not_mem_nil, or_false] at hp
          rcases hp with rfl | rfl
          · exact ⟨1, rfl⟩
          · exact ⟨2, rfl⟩).present _ (fun ⟨n, e⟩ => absurd e nofun)
      refine supply_at (fun v => v.ci.supply = after ∧ (v.sc.service = s.sc.service ∧ v.ge[g] = s.ge[g]) ∧
          v.fm.present (.gauge g) = s.fm.present (.gauge g))
        (fun v => v.fm.present (.gauge g) = (s.fm.present (.gauge g) || (s.ge[g].homed && decide (3 ≤ s.ge[g].again))))
        ⟨supply, ⟨congrArg Controller.service only.sc, by rw [← only.ge]⟩, by rw [← only.fm]⟩ (fun v => ⟨?_, fun k => ?_⟩)
        (fun v => ⟨?_, fun k => ?_⟩) (turns rfl) fun v k => ?_
      · rintro ⟨same, k, present⟩
        exact ⟨(congrArg Interp.supply (handSupplyToWm_only v).ci).trans same, work.handSupplyToWm k, (warns _ id v).trans present⟩
      · exact (warns _ id v).trans k
      · rintro ⟨same, k, present⟩
        exact ⟨(congrArg Interp.supply (handPresences_only v _).ci).trans same, work.quiet (handPresences_only v _).mono k,
          (keeps v).trans present⟩
      · exact (keeps v).trans k
      · obtain ⟨same, ⟨-, gauge⟩, present⟩ := k
        exact rises_count (by rw [same]; exact up) held resume record ⟨gauge, present⟩

end

end Sys2Proof.Machine
end

section
/-! PROOFS. What a REFERENCE and a SUPPLY result leave, whole (O50; R58 to R61). -/

namespace Sys2Proof.Machine

set_option Elab.async false

section
variable {s x : State} {r : ResultRecord}

/-! ## The REFERENCE (R58 to R60) -/

/-- The count of a result stored with its judgement. -/
abbrev State.judgedCi (s : State) (r : ResultRecord) (j : Judgement) : Interp :=
  { s.ci with passCount := some r.count, judgement := some j }

/-- What a REFERENCE result leaves in each of the five ways of its judgement. -/
structure State.ReferenceJudged (s t : State) (r : ResultRecord) (good : Prop) : Prop where
  handed   : s.HandedOn t
  sound    : good → s.ci.refFault = false → t.ci = { s.judgedCi r .good with failCount := 0 } ∧
    t.li = if s.ci.failCount = 0 then s.li else s.li.place .referenceGood 0 (val r.count)
  ends     : good → s.ci.refFault = true →
    t.ci = { s.judgedCi r .good with failCount := 0, refFault := false, wired := t.ci.wired } ∧
      s.eachJudged Wired.restart t ∧ t.fm.present (.system 0) = false
  fails    : ¬ good → s.ci.failCount < 2 →
    t.ci = { s.judgedCi r .failed with failCount := s.ci.failCount + 1, wired := t.ci.wired } ∧
      s.eachJudged (fun w => { w with status := if w.status = .valid then .held else w.status }) t
  declares : ¬ good → 2 ≤ s.ci.failCount → s.ci.refFault = false →
    t.ci = { s.judgedCi r .failed with failCount := 3, refFault := true, wired := t.ci.wired } ∧
      s.eachJudged (fun w => { w with status := .fault, wiring := .undetermined }) t ∧ t.fm.present (.system 0) = true ∧
      ∀ ch : Fin 24, s.ci.wired[ch].cfg.kind ≠ .off → s.sc.opState ≠ .parked ∨ ch ∈ s.sc.watchSet →
        t.fm.present (.wiring ch) = false
  stays    : ¬ good → 2 ≤ s.ci.failCount → s.ci.refFault = true → t.ci = s.judgedCi r .failed ∧ t.li = s.li

theorem referenceResult_judged (ready : Only [.cu, .free] s x) :
    s.ReferenceJudged (referenceResult r x) r (s.ci.inWindow r.count ∧ r.saturated = false) := by
  by_cases good : s.ci.inWindow r.count ∧ r.saturated = false
  · rw [referenceResult_good (by rw [ready.ci]; exact good)]
    cases fault : s.ci.refFault with
    | false =>
      obtain ⟨handed, ci, li⟩ := referenceGood_sound ready (r := r) fault r.count
      exact ⟨handed, fun _ _ => ⟨ci, li⟩, fun _ on => absurd (fault.symm.trans on) nofun, fun bad => absurd good bad,
        fun bad => absurd good bad, fun bad => absurd good bad⟩
    | true =>
      obtain ⟨handed, each, ended, ci⟩ := referenceGood_ends ready (r := r) fault r.count
      exact ⟨handed, fun _ off => absurd (off.symm.trans fault) nofun, fun _ _ => ⟨ci, each, ended⟩, fun bad => absurd good bad,
        fun bad => absurd good bad, fun bad => absurd good bad⟩
  · rw [referenceResult_failed (by rw [ready.ci]; exact good), ready.ci]
    by_cases few : s.ci.failCount < 2
    · rw [if_pos few]
      obtain ⟨handed, each, ci⟩ := referenceFailed_holds ready (r := r) r.count
      exact ⟨handed, fun is => absurd is good, fun is => absurd is good, fun _ _ => ⟨ci, each⟩,
        fun _ more => absurd few (Nat.not_lt.2 more), fun _ more => absurd few (Nat.not_lt.2 more)⟩
    · rw [if_neg few]
      cases fault : s.ci.refFault with
      | false =>
        obtain ⟨handed, each, declared, wiring, ci⟩ := referenceFault_declared ready (r := r) fault r.count
        exact ⟨handed, fun is => absurd is good, fun is => absurd is good, fun _ less => absurd less few,
          fun _ _ _ => ⟨ci, each, declared, wiring⟩, fun _ _ on => absurd (fault.symm.trans on) nofun⟩
      | true =>
        have ci := judgedAs_ci ready r .failed
        have only := judgedAs_ready ready r .failed
        exact ⟨.still only.mono (by rw [if_pos rfl, ci]; exact eff_congr rfl rfl) (by rw [if_pos rfl, ci]) (by rw [if_pos rfl, ci])
            (by rw [if_pos rfl, ci]), fun is => absurd is good, fun is => absurd is good, fun _ less => absurd less few,
          fun _ _ off => absurd (off.symm.trans fault) nofun, fun _ _ _ => ⟨ci, only.li⟩⟩

/-! ## The SUPPLY (R61, R84, R85) -/

/-- The supply voltage of a result. -/
abbrev ResultRecord.supplyMv (r : ResultRecord) : Nat := min 60000 (r.count * 4)

/-- What a SUPPLY result leaves, where the supply state stays and where it changes. -/
structure State.SupplyJudged (s t : State) (mv : Nat) (after : SupplyState) : Prop where
  ci    : t.ci = { s.ci with supplyMv := some mv, supply := after }
  still : after = s.ci.supply → t.li = s.li ∧ t.ge = s.ge ∧ t.wm = s.wm ∧ t.fm = s.fm
  moves : after ≠ s.ci.supply → s.SupplyMoves t s.ci.supply after

theorem supplyResult_judged (ready : Only [.cu, .free] s x) :
    s.SupplyJudged (supplyResult r x) r.supplyMv (s.ci.supply.after r.supplyMv) := by
  rw [supplyResult_eq, ready.ci]
  set after := s.ci.supply.after r.supplyMv with after_eq
  have ci : (x.supplied r.supplyMv after).ci = { s.ci with supplyMv := some r.supplyMv, supply := after } := by
    show ({ x.ci with supplyMv := some r.supplyMv, supply := after } : Interp) = _
    rw [ready.ci]
  have only : Only [.cu, .ci, .free] s (x.supplied r.supplyMv after) := ready.mono.trans (modCi_only x _).mono
  split
  next same => exact ⟨ci, fun _ => ⟨only.li, only.ge, only.wm, only.fm⟩, fun changed => absurd same changed⟩
  next changed =>
    refine ⟨?_, fun same => absurd same changed, fun _ => supply_moves (only.mono.trans (report_only _ _ _ _).mono) ?_⟩
    · refine inFreeOrder_induct (fun t => t.ci = { s.ci with supplyMv := some r.supplyMv, supply := after }) ci fun f hf t h => ?_
      simp only [List.mem_cons, Prod.mk.injEq, List.not_mem_nil, or_false] at hf
      rcases hf with ⟨-, rfl⟩ | ⟨-, rfl⟩ | ⟨-, rfl⟩
      · exact (gaugesTakeSupply_only t _).ci.trans h
      · exact (handSupplyToWm_only t).ci.trans h
      · exact (handPresences_only t _).ci.trans h
    · rw [report_ci, ci]

end

/-! ## The statement -/

/-- Settles O50: after the completion, but for the CU, the state is that of the CI's judgement of the result. -/
theorem referenceAndSupplyResultsAreJudged : Obligations.ReferenceAndSupplyResultsAreJudged := by
  unfold Obligations.ReferenceAndSupplyResultsAreJudged
  intro s c periods pin bias spent ends mode
  set r := c.record periods pin bias with r_eq
  have live (awake : s.sc.opState ≠ .parked) : s.live := by
    rcases mode with run | shutdown | ⟨parked, -⟩
    · exact .inl run
    · exact .inr shutdown
    · exact absurd parked awake
  refine ⟨fun target => ?_, fun target => ?_⟩
  · obtain ⟨u, done⟩ := resultTaken (periods := periods) (pin := pin) (bias := bias) ends (fun ch => by rw [target]; nofun) mode
    have taken : takeResult r (s.ready r) = referenceResult r (s.ready r) := by
      have at_ : r.target = .reference := target
      unfold takeResult
      rw [at_]
    rw [← r_eq, taken] at done
    have good : (s.ci.inWindow r.count ∧ r.saturated = false) ↔
        (s.ci.nRefMin ≤ min periods 65535 ∧ min periods 65535 ≤ s.ci.nRefMax ∧ min periods 65535 < 65535) := by
      show (_ ∧ _) ∧ decide (65535 ≤ periods) = false ↔ _
      rw [decide_eq_false_iff_not]
      show (_ ≤ min periods 65535 ∧ min periods 65535 ≤ _) ∧ _ ↔ _
      omega
    obtain ⟨handed, sound, ended, fails, declares, stays⟩ := referenceResult_judged (r := r) (ready_only s r)
    rw [good] at sound ended fails declares stays
    exact ⟨_, done, sound, ended, fails, declares, stays, fun awake => ⟨handed.gauges (live awake), handed.leaves (live awake)⟩,
      handed.warnings⟩
  · obtain ⟨u, done⟩ := resultTaken (periods := periods) (pin := pin) (bias := bias) ends (fun ch => by rw [target]; nofun) mode
    have taken : takeResult r (s.ready r) = supplyResult r (s.ready r) := by
      have at_ : r.target = .supply := target
      unfold takeResult
      rw [at_]
    rw [← r_eq, taken] at done
    have mv : r.supplyMv = min 60000 (4 * min periods 65535) := congrArg (min 60000) (Nat.mul_comm _ 4)
    obtain ⟨ci, still, moves⟩ := supplyResult_judged (r := r) (ready_only s r)
    rw [mv] at ci still moves
    rw [supply_after] at ci still moves
    refine ⟨_, done, ci, still, fun changed => ⟨(moves changed).low, (moves changed).high⟩, fun low was g => ?_, fun was up g => ?_⟩
    · exact (moves fun same => was (same.symm.trans low)).falls low g
    · have moved := moves fun same => up (same.trans was)
      exact ⟨moved.stays was up g, fun st => moved.back was up g st, fun held resume _ => moved.test was up g held resume,
        fun again => moved.homes was up g again⟩

end Sys2Proof.Machine
end
